-- ==== Sys2Proof/Word.lean ====
section
/-!
DEFINITION. The words of the machine (spec 00_scope.md R10): a register of the window is 32 bits, an
operand register is 64 bits and is reached as two 32-bit halves (10_state.md R21).
-/

namespace Sys2Proof

/-- One byte lane of the window (20_memory.md R62). -/
abbrev Byte := BitVec 8

/-- One register of the window: 32 bits (20_memory.md R61). -/
abbrev Word32 := BitVec 32

/-- One operand or result register: 64 bits (10_state.md R21, R22). -/
abbrev Word64 := BitVec 64

end Sys2Proof
end

