-- ==== Sys2Proof/Config.lean ====
section
/-!
DEFINITION. What the build fixes (00_scope.md R7) and the values the spec leaves open: the free values,
opaque constants applied to the counter of State, so that no proof can see them.
-/

namespace Sys2Proof

/-- The parameters the spec calls model arguments (00_scope.md R7): FAST32, FAST64 and BASE. BASE must be a
multiple of 0x100 (20_memory.md R60), so its page number is held. -/
structure Params where
  /-- The FAST32 datapath is present: a 64-bit product and a 64-bit ModPow for W = 32. -/
  fast32 : Bool
  /-- The FAST64 datapath is present: a 128-bit product and a 128-bit ModPow for W = 64. -/
  fast64 : Bool
  /-- BASE divided by 0x100. -/
  basePage : Nat
  deriving DecidableEq, Repr

/-- BASE, the platform address of the window (20_memory.md R60). -/
def Params.base (p : Params) : Nat := 0x100 * p.basePage

/-- The spec's default build: FAST32 and FAST64 present (00_scope.md R7). DESIGN CHOICE (log 1): BASE is OPEN,
and this build places the window at address 0. Unsafe for a claim that needs this BASE; `State.resetOf` takes
every build. -/
def Config.defaultParams : Params := { fast32 := true, fast64 := true, basePage := 0 }

/-- The identifier string of a build (00_scope.md R1). -/
def Params.identifier (p : Params) : String :=
  "simplerandom-core-W32-W64" ++ (if p.fast32 then "+FAST32" else "") ++ (if p.fast64 then "+FAST64" else "")

/-- The hidden working registers of the four units (10_state.md R35), each at the widest of its widths.
No rule reads one from outside the command that uses it, and none is ever observable. -/
structure WorkRegs where
  /-- modular_multiplier, wide: product accumulator P (2W). -/
  product : BitVec 128
  /-- modular_multiplier, bit-serial: b' (W). -/
  serialB : Word64
  /-- modular_multiplier, bit-serial: result (W). -/
  serialResult : Word64
  /-- modular_multiplier, bit-serial: temp_b (W). -/
  serialTempB : Word64
  /-- modular_multiplier, bit-serial: bit index (0..W). -/
  serialIndex : Fin 65
  /-- power_engine: accumulator (W). -/
  powAcc : Word64
  /-- power_engine: current squared base (W). -/
  powSq : Word64
  /-- power_engine: remaining exponent (64). -/
  powE : Word64
  /-- modular_exponentiation_engine: accumulator (W or 2W). -/
  powmodAcc : BitVec 128
  /-- modular_exponentiation_engine: current squared base (W or 2W). -/
  powmodSq : BitVec 128
  /-- modular_exponentiation_engine: remaining exponent (64). -/
  powmodE : Word64
  /-- geometric series, closed form: d (W). -/
  geomD : Word64
  /-- geometric series, closed form: k (W). -/
  geomK : Word64
  /-- geometric series, closed form: other_factors o (W). -/
  geomO : Word64
  /-- geometric series, closed form: other_factors_inverse (W). -/
  geomOinv : Word64
  /-- geometric series, closed form: modulus common_factor * 2^W (2W). -/
  geomMx : BitVec 128
  /-- geometric series, closed form: numerator (2W). -/
  geomNum : BitVec 128
  /-- geometric series, pairing: result (W). -/
  pairResult : Word64
  /-- geometric series, pairing: mult (W). -/
  pairMult : Word64
  /-- geometric series, pairing: temp_r (W). -/
  pairTempR : Word64
  /-- geometric series, pairing: remaining n (64). -/
  pairE : Word64
  deriving DecidableEq, Repr, Inhabited

/-- FREE VALUE (log 5): what the working registers hold after a step. 93_implementation_defined.md: "any value;
no rule reads them". DESIGN CHOICE, safe: no body, so a claim about it holds whatever it is. -/
opaque Config.freeWork : Nat → WorkRegs

end Sys2Proof
end

