-- ==== Sys2Proof/Syntax.lean ====
section
/-!
DEFINITION. The commands of the core: one constructor for each row of spec/opcode_table.json
(30_encoding.md R97), and the three choices a command word makes (R91, R92, R93).
-/

namespace Sys2Proof

/-- The operation, field OP (30_encoding.md R91); each names its unit (00_scope.md R2). -/
inductive Op where
  /-- modular_multiplier -/
  | mulmod
  /-- power_engine -/
  | pow
  /-- modular_exponentiation_engine -/
  | powmod
  /-- geometric_series_mod_2w_engine -/
  | geom
  deriving DecidableEq, Repr

/-- The operand width W, field W64 (30_encoding.md R92). -/
inductive Width where
  | w32
  | w64
  deriving DecidableEq, Repr

/-- W as a number of bits. -/
def Width.bits : Width → Nat
  | .w32 => 32
  | .w64 => 64

/-- The strategy, field STRAT (30_encoding.md R93). -/
inductive Strategy where
  | fast
  | portable
  deriving DecidableEq, Repr

/-- The fields a command word carries (30_encoding.md R90). -/
structure Fields where
  op : Op
  width : Width
  strat : Strategy
  deriving DecidableEq, Repr

/-- The 14 commands (30_encoding.md R97). A command has no operand: its operands stand in A, B, M and N (R95). -/
inductive Instr where
  | mulmodW32Wide
  | mulmodW32Serial
  | mulmodW64Wide
  | mulmodW64Serial
  | powW32
  | powW64
  | powmodW32Wide
  | powmodW32Serial
  | powmodW64Wide
  | powmodW64Serial
  | geomW32Closed
  | geomW32Pair
  | geomW64Closed
  | geomW64Pair
  deriving DecidableEq, Repr

/-- The fields of each command (30_encoding.md R97: columns OP, W64 and STRAT). -/
def Instr.fields : Instr → Fields
  | .mulmodW32Wide => ⟨.mulmod, .w32, .fast⟩
  | .mulmodW32Serial => ⟨.mulmod, .w32, .portable⟩
  | .mulmodW64Wide => ⟨.mulmod, .w64, .fast⟩
  | .mulmodW64Serial => ⟨.mulmod, .w64, .portable⟩
  | .powW32 => ⟨.pow, .w32, .fast⟩
  | .powW64 => ⟨.pow, .w64, .fast⟩
  | .powmodW32Wide => ⟨.powmod, .w32, .fast⟩
  | .powmodW32Serial => ⟨.powmod, .w32, .portable⟩
  | .powmodW64Wide => ⟨.powmod, .w64, .fast⟩
  | .powmodW64Serial => ⟨.powmod, .w64, .portable⟩
  | .geomW32Closed => ⟨.geom, .w32, .fast⟩
  | .geomW32Pair => ⟨.geom, .w32, .portable⟩
  | .geomW64Closed => ⟨.geom, .w64, .fast⟩
  | .geomW64Pair => ⟨.geom, .w64, .portable⟩

/-- The mnemonic of each command (30_encoding.md R97, R100). -/
def Instr.mnemonic : Instr → String
  | .mulmodW32Wide => "mulmod.w32.wide"
  | .mulmodW32Serial => "mulmod.w32.serial"
  | .mulmodW64Wide => "mulmod.w64.wide"
  | .mulmodW64Serial => "mulmod.w64.serial"
  | .powW32 => "pow.w32"
  | .powW64 => "pow.w64"
  | .powmodW32Wide => "powmod.w32.wide"
  | .powmodW32Serial => "powmod.w32.serial"
  | .powmodW64Wide => "powmod.w64.wide"
  | .powmodW64Serial => "powmod.w64.serial"
  | .geomW32Closed => "geom.w32.closed"
  | .geomW32Pair => "geom.w32.pair"
  | .geomW64Closed => "geom.w64.closed"
  | .geomW64Pair => "geom.w64.pair"

end Sys2Proof
end

