-- ==== Sys2Proof/WellFormed.lean ====
section
/-!
DEFINITION. What a well-formed command is. A command carries no operand, so the one thing that can be wrong with
a choice of fields is a strategy the operation does not have (30_encoding.md R93: POW has one strategy).
-/

namespace Sys2Proof

/-- The one check on the fields of a command (30_encoding.md R93, R96): POW is never PORTABLE. -/
def Fields.wellFormed (f : Fields) : Bool :=
  !(f.op == .pow && f.strat == .portable)

/-- A command is well formed when its fields are. -/
def Instr.wellFormed (i : Instr) : Bool := i.fields.wellFormed

end Sys2Proof
end

