-- ==== Sys2Proof/Decode.lean ====
section
/-!
DEFINITION. The decoder of command words, total on every word and on any bytes, rejecting by name
(30_encoding.md R90 to R99), the encoder, and the disassembler (R100).
-/

namespace Sys2Proof

/-- Why the decoder rejects. Every rejection of a whole word is the spec's Illegal (30_encoding.md R96). -/
inductive DecodeError where
  /-- A bit of [3], [7:5] or [31:9] is set (30_encoding.md R94). -/
  | reservedBits
  /-- OP is 4 to 7 (30_encoding.md R98). -/
  | reservedOp
  /-- POW with STRAT = 1 (30_encoding.md R93). -/
  | powPortable
  /-- Fewer than the four bytes of a command word (30_encoding.md R99). -/
  | truncated
  deriving DecidableEq, Repr

/-- What the decoder answers. -/
inductive Decoded (α : Type) where
  | ok (a : α)
  | illegal (e : DecodeError)
  deriving DecidableEq, Repr

/-- Field OP, bits [2:0] (30_encoding.md R91). -/
def opField (v : Word32) : BitVec 3 := v.extractLsb' 0 3

/-- Field W64, bit [4] (30_encoding.md R92). -/
def widthField (v : Word32) : Width := if v.getLsbD 4 then .w64 else .w32

/-- Field STRAT, bit [8] (30_encoding.md R93). -/
def stratField (v : Word32) : Strategy := if v.getLsbD 8 then .portable else .fast

/-- Some reserved bit, [3], [7:5] or [31:9], is set (30_encoding.md R94). -/
def reservedSet (v : Word32) : Bool :=
  v.extractLsb' 9 23 != 0#23 || v.extractLsb' 5 3 != 0#3 || v.getLsbD 3

/-- The operation an OP value selects (30_encoding.md R91); none for the reserved values 4 to 7. -/
def opOfField (b : BitVec 3) : Option Op :=
  if b = 0b000#3 then some .mulmod
  else if b = 0b001#3 then some .pow
  else if b = 0b010#3 then some .powmod
  else if b = 0b011#3 then some .geom
  else none

/-- The command with these fields (30_encoding.md R97); none for POW with the PORTABLE strategy. -/
def instrOfFields : Op → Width → Strategy → Option Instr
  | .mulmod, .w32, .fast => some .mulmodW32Wide
  | .mulmod, .w32, .portable => some .mulmodW32Serial
  | .mulmod, .w64, .fast => some .mulmodW64Wide
  | .mulmod, .w64, .portable => some .mulmodW64Serial
  | .pow, .w32, .fast => some .powW32
  | .pow, .w64, .fast => some .powW64
  | .pow, _, .portable => none
  | .powmod, .w32, .fast => some .powmodW32Wide
  | .powmod, .w32, .portable => some .powmodW32Serial
  | .powmod, .w64, .fast => some .powmodW64Wide
  | .powmod, .w64, .portable => some .powmodW64Serial
  | .geom, .w32, .fast => some .geomW32Closed
  | .geom, .w32, .portable => some .geomW32Pair
  | .geom, .w64, .fast => some .geomW64Closed
  | .geom, .w64, .portable => some .geomW64Pair

/-- Decode (30_encoding.md R96). -/
def decodeWord (v : Word32) : Decoded Instr :=
  if reservedSet v then .illegal .reservedBits
  else
    match opOfField (opField v) with
    | none => .illegal .reservedOp
    | some op =>
      match instrOfFields op (widthField v) (stratField v) with
      | none => .illegal .powPortable
      | some i => .ok i

/-- A word as the four bytes at the lanes 0 to 3, little-endian (20_memory.md R62). -/
def wordOfBytes (b0 b1 b2 b3 : Byte) : Word32 := b3 ++ b2 ++ b1 ++ b0

/-- Byte lane j of a word: bits [8j+7:8j] (20_memory.md R62). -/
def byteOfWord (v : Word32) (j : Nat) : Byte := v.extractLsb' (8 * j) 8

/-- The decoder on any bytes: the first four are the command word, and the rest come back. -/
def decodeBytes : List Byte → Decoded (Instr × List Byte)
  | b0 :: b1 :: b2 :: b3 :: rest =>
    match decodeWord (wordOfBytes b0 b1 b2 b3) with
    | .ok i => .ok (i, rest)
    | .illegal e => .illegal e
  | _ => .illegal .truncated

/-- The OP value of an operation (30_encoding.md R91). -/
def opCode : Op → BitVec 3
  | .mulmod => 0b000#3
  | .pow => 0b001#3
  | .powmod => 0b010#3
  | .geom => 0b011#3

/-- The W64 bit of a width (30_encoding.md R92). -/
def widthCode : Width → BitVec 1
  | .w32 => 0#1
  | .w64 => 1#1

/-- The STRAT bit of a strategy (30_encoding.md R93). -/
def stratCode : Strategy → BitVec 1
  | .fast => 0#1
  | .portable => 1#1

/-- The command word with these fields: reserved, STRAT, reserved, W64, reserved, OP (30_encoding.md R90). -/
def commandWord (f : Fields) : Word32 :=
  0#23 ++ stratCode f.strat ++ 0#3 ++ widthCode f.width ++ 0#1 ++ opCode f.op

/-- The word of a command (30_encoding.md R97). -/
def encode (i : Instr) : Word32 := commandWord i.fields

/-- The four bytes of a command's word, lowest lane first (20_memory.md R62). -/
def encodeBytes (i : Instr) : List Byte :=
  [byteOfWord (encode i) 0, byteOfWord (encode i) 1, byteOfWord (encode i) 2, byteOfWord (encode i) 3]

/-- The command the decoder reads from an instruction of the opcode table whose bits are `w`: the low `nbits` bits,
laid out as the four byte lanes of CMD. -/
def decodeTableWord (nbits w : Nat) : Option Instr :=
  let v := w % 2 ^ nbits
  if v < 2 ^ 32 then
    let c := BitVec.ofNat 32 v
    match decodeBytes [byteOfWord c 0, byteOfWord c 1, byteOfWord c 2, byteOfWord c 3] with
    | .ok (i, _) => some i
    | .illegal _ => none
  else none

/-- One hexadecimal digit, in the capitals the spec writes its values in. DEDUCED (log 18). -/
def hexDigit (b : BitVec 4) : Char :=
  if b.toNat < 10 then Char.ofNat (48 + b.toNat) else Char.ofNat (55 + b.toNat)

/-- A word as 8 hexadecimal digits, the highest first. -/
def hexWord (v : Word32) : String :=
  String.ofList ([7, 6, 5, 4, 3, 2, 1, 0].map fun k => hexDigit (v.extractLsb' (4 * k) 4))

/-- What a disassembler prints (30_encoding.md R100): a legal word as its mnemonic, any other as
`.illegal 0x` and 8 hexadecimal digits. -/
def disassemble (v : Word32) : String :=
  match decodeWord v with
  | .ok i => i.mnemonic
  | .illegal _ => ".illegal 0x" ++ hexWord v

end Sys2Proof
end

