-- ==== Sys2Proof/Machine/Arith.lean ====
section
/-!
DEFINITION. What the four units compute, on unbounded natural numbers as 00_scope.md R11 writes it: each strategy
as its rule's pseudocode, loop by loop, and each operation's contract (40_modmul.md, 41_pow.md,
42_powmod.md, 43_geomseries.md). The fuel of a loop over the count is NW = 64, the width of N.
-/

namespace Sys2Proof.Machine

/-- NW, the width of the count n (00_scope.md R7). -/
def countBits : Nat := 64

/-- trunc_W(v) = v mod 2^W (00_scope.md R10). -/
def trunc (w v : Nat) : Nat := v % 2 ^ w

/-- Contract of ModMul (40_modmul.md R120). -/
def mulmod (a b m : Nat) : Nat := a * b % m

/-- The wide-accumulator strategy (40_modmul.md R121): the exact product, then one reduction. -/
def mulmodWide (a b m : Nat) : Nat :=
  let p := a * b
  p % m

/-- The bounded modular add (40_modmul.md R122). -/
def addmod (x y m : Nat) : Nat := if x ≥ m - y then x - (m - y) else x + y

/-- b reduced modulo m before the loop (40_modmul.md R123). -/
def reduceOperand (b m : Nat) : Nat := if b < m then b else if b < 2 * m then b - m else b % m

/-- One iteration of the bit-serial loop at bit i of a (40_modmul.md R124), on (result, temp_b). -/
def serialStep (a m i : Nat) (st : Nat × Nat) : Nat × Nat :=
  (if a.testBit i then addmod st.1 st.2 m else st.1, addmod st.2 st.2 m)

/-- (result, temp_b) of the bit-serial loop at the start of iteration i (40_modmul.md R124). -/
def serialLoop (a b m : Nat) : Nat → Nat × Nat
  | 0 => (0, reduceOperand b m)
  | i + 1 => serialStep a m i (serialLoop a b m i)

/-- The bit-serial double-and-add strategy at width w (40_modmul.md R124): w iterations. -/
def mulmodSerial (w a b m : Nat) : Nat := (serialLoop a b m w).1

/-- Contract of Pow (41_pow.md R150). -/
def powContract (w base n : Nat) : Nat := base ^ n % 2 ^ w

/-- The loop of Pow on acc, sq and e (41_pow.md R151). -/
def powLoop (w : Nat) : Nat → Nat → Nat → Nat → Nat
  | 0, acc, _, _ => acc
  | fuel + 1, acc, sq, e =>
    if e = 0 then acc
    else
      powLoop w fuel (if e % 2 = 1 then trunc w (acc * sq) else acc)
        (if e / 2 ≠ 0 then trunc w (sq * sq) else sq) (e / 2)

/-- The power_engine at width w (41_pow.md R151). -/
def powUnit (w base n : Nat) : Nat := powLoop w countBits 1 base n

/-- Contract of ModPow (42_powmod.md R170). -/
def powmodContract (base n m : Nat) : Nat := base ^ n % m

/-- The loop of ModPow over a multiplier mm (42_powmod.md R171). -/
def powmodLoop (mm : Nat → Nat → Nat → Nat) (m : Nat) : Nat → Nat → Nat → Nat → Nat
  | 0, acc, _, _ => acc
  | fuel + 1, acc, sq, e =>
    if e = 0 then acc
    else
      powmodLoop mm m fuel (if e % 2 = 1 then mm acc sq m else acc)
        (if e / 2 ≠ 0 then mm sq sq m else sq) (e / 2)

/-- The modular_exponentiation_engine over a multiplier mm (42_powmod.md R171); acc starts at 1 mod m (R172). -/
def powmodOver (mm : Nat → Nat → Nat → Nat) (base n m : Nat) : Nat :=
  powmodLoop mm m countBits (1 % m) base n

/-- powmod_2W, the double-width engine of the closed form (42_powmod.md R174): its multiplier is exact. -/
def powmodDouble (base n mx : Nat) : Nat := powmodOver mulmodWide base n mx

/-- Contract of GeomSeriesMod2W (43_geomseries.md R190): the sum of r^i for i in [0, n), mod 2^W. -/
def geomContract (w r n : Nat) : Nat := (∑ i ∈ Finset.range n, r ^ i) % 2 ^ w

/-- ctz(d) for 0 < d < 2^fuel, the number of trailing zeros (00_scope.md R11). -/
def ctz : Nat → Nat → Nat
  | 0, _ => 0
  | fuel + 1, d => if d % 2 = 1 then 0 else 1 + ctz fuel (d / 2)

/-- The closed-form strategy at width w (43_geomseries.md R192). -/
def geomClosed (w r n : Nat) : Nat :=
  if r = 1 then trunc w n
  else
    let d := (r + 2 ^ w - 1) % 2 ^ w
    let k := ctz w d
    let cf := 2 ^ k
    let o := d / cf
    let oinv := powUnit w o (2 ^ w - 1)
    let mx := cf * 2 ^ w
    let p := powmodDouble r n mx
    let num := (p + mx - 1) % mx
    let q := num / cf
    trunc w (q * oinv)

/-- The loop of the pairing strategy on result, mult, temp_r and e (43_geomseries.md R199). -/
def pairLoop (w : Nat) : Nat → Nat → Nat → Nat → Nat → Nat
  | 0, result, mult, _, _ => trunc w (result + mult)
  | fuel + 1, result, mult, tempR, e =>
    if e > 1 then
      pairLoop w fuel (if e % 2 = 1 then trunc w (result + mult * powUnit w tempR (e - 1)) else result)
        (trunc w (mult * (1 + tempR))) (trunc w (tempR * tempR)) (e / 2)
    else trunc w (result + mult)

/-- The pairing/doubling strategy at width w (43_geomseries.md R199), with the guard for n = 0 (R200). -/
def geomPair (w r n : Nat) : Nat := if n = 0 then 0 else pairLoop w countBits 0 1 r n

end Sys2Proof.Machine
end

