-- ==== Sys2Proof/Machine/State.lean ====
section
/-!
DEFINITION. The state of the core: everything 10_state.md R20 names, as plain data, and the state after reset
(R37). The model's own fields stand last: the turns of the agents, the last response, the counter of free values.
-/

namespace Sys2Proof.Machine

/-- STATUS (10_state.md R28). Bits [31:8] are RAZ/WI and hold nothing. -/
structure Status where
  /-- Bit [0]: ENG is Busy. -/
  busy : Bool
  /-- Bit [1]: the last issued or rejected command has ended. -/
  done : Bool
  /-- Bit [2]: the last command was rejected. -/
  err : Bool
  /-- Bit [3]: a CMD write was dropped. -/
  ovr : Bool
  /-- Bits [7:4]: why the last command was rejected. -/
  errcode : BitVec 4
  deriving DecidableEq, Repr

/-- IRQEN (10_state.md R29). Bits [31:3] are RAZ/WI and hold nothing. -/
structure IrqEnable where
  /-- Bit [0]: DONE drives IRQ. -/
  doneIE : Bool
  /-- Bit [1]: ERR drives IRQ. -/
  errIE : Bool
  /-- Bit [2]: OVR drives IRQ. -/
  ovrIE : Bool
  deriving DecidableEq, Repr

/-- A job, latched at issue (10_state.md R34): the effective strategy and the operands, a, b, m below 2^W. -/
structure Job where
  op : Op
  width : Width
  strat : Strategy
  a : Word64
  b : Word64
  m : Word64
  n : Word64
  deriving DecidableEq, Repr

/-- ENG, the hidden engine state (10_state.md R34). -/
inductive Engine where
  | idle
  | busy (job : Job)
  deriving DecidableEq, Repr

/-- A host transaction at a platform address (00_scope.md R8, R13; 20_memory.md R60). Address and size are natural
numbers, for the spec gives them no width (log 10). -/
inductive Transaction where
  /-- A read of `size` bytes. -/
  | read (addr size : Nat)
  /-- A write of `size` bytes; the value matters only for a size of 4 (20_memory.md R68). -/
  | write (addr size : Nat) (v : Word32)
  deriving DecidableEq, Repr

/-- What can happen next (20_memory.md R70, 30_encoding.md R106, 70_reset_and_hazards.md R270). -/
inductive Turn where
  /-- A host transaction arrives. -/
  | host (t : Transaction)
  /-- The engine takes its step Complete, if it is Busy. -/
  | engine
  /-- The reset input is asserted. -/
  | resetAssert
  /-- The reset input is released: reset ends. -/
  | resetRelease
  deriving DecidableEq, Repr

/-- What the core answered to the last transaction (20_memory.md R67, R68; 60_exceptions.md R234). -/
inductive Response where
  /-- No transaction since reset. -/
  | none
  /-- A read returned this value. -/
  | data (v : Word32)
  /-- A write was accepted, whatever it did. -/
  | written
  /-- The error response of a wrong size or alignment. -/
  | busError
  /-- The core did not answer: the address is outside the window (R60), or reset is asserted (R270). -/
  | silent
  deriving DecidableEq, Repr

/-- The machine. -/
structure State where
  /-- The build: FAST32, FAST64 and BASE (00_scope.md R7); CAPS reads it (10_state.md R30). No step changes it. -/
  params : Params
  /-- A (10_state.md R21). -/
  regA : Word64
  /-- B (10_state.md R21). -/
  regB : Word64
  /-- M (10_state.md R21). -/
  regM : Word64
  /-- N (10_state.md R21, R24). -/
  regN : Word64
  /-- RES (10_state.md R22). -/
  res : Word64
  /-- CMD (10_state.md R26). -/
  cmd : Word32
  /-- STATUS (10_state.md R28). -/
  status : Status
  /-- IRQEN (10_state.md R29). -/
  irqen : IrqEnable
  /-- ENG (10_state.md R34). -/
  eng : Engine
  /-- The working registers of the units (10_state.md R35). -/
  work : WorkRegs
  /-- The reset input is asserted (70_reset_and_hazards.md R270; log 6). -/
  inReset : Bool
  /-- MODEL's own: what happens next, in order of arrival (log 2). -/
  turns : List Turn
  /-- MODEL's own: the answer to the last transaction (log 8). -/
  response : Response
  /-- MODEL's own: the counter the free values are applied to (log 17). -/
  freeCount : Nat
  deriving DecidableEq, Repr

/-- Why the machine stops with a fault: never. The core has no trap and no error after issue (60_exceptions.md R235,
R239), every access has a response, and every error is a report in STATUS or a bus error response, both next
states. So nothing raises a fault, and there is no constructor. -/
inductive Fault where
  deriving DecidableEq, Repr

/-- Why an instruction is refused. -/
inductive Refusal where
  /-- Raised by an arm of exec whose instruction has no meaning yet; safe, the model stops where the hardware goes
  on. No arm raises it: all 14 commands have their meaning. -/
  | notModelled (mnemonic : String)
  deriving DecidableEq, Repr

/-- The state after reset of any build (10_state.md R37): every register 0, ENG Idle, CAPS by the build.
DESIGN CHOICE (log 5): the working registers, which R37 leaves unspecified, are 0; unsafe only for a claim about
them. DESIGN CHOICE (logs 2, 8, 17): the model's own fields are empty. -/
def State.resetOf (p : Params) : State where
  params := p
  regA := 0
  regB := 0
  regM := 0
  regN := 0
  res := 0
  cmd := 0
  status := { busy := false, done := false, err := false, ovr := false, errcode := 0 }
  irqen := { doneIE := false, errIE := false, ovrIE := false }
  eng := .idle
  work := { product := 0, serialB := 0, serialResult := 0, serialTempB := 0, serialIndex := 0,
            powAcc := 0, powSq := 0, powE := 0, powmodAcc := 0, powmodSq := 0, powmodE := 0,
            geomD := 0, geomK := 0, geomO := 0, geomOinv := 0, geomMx := 0, geomNum := 0,
            pairResult := 0, pairMult := 0, pairTempR := 0, pairE := 0 }
  inReset := false
  turns := []
  response := .none
  freeCount := 0

/-- The state right after reset, of the spec's default build (00_scope.md R7; log 1). -/
def State.reset : State := State.resetOf Config.defaultParams

end Sys2Proof.Machine
end

