-- ==== Sys2Proof/Machine/Flags.lean ====
section
/-!
DEFINITION. The flags and all that writes them: one function for each row of the table of 10_state.md R31 but the
reset row (which is `State.resetOf`), and the interrupt output (60_exceptions.md R236).
-/

namespace Sys2Proof.Machine

/-- The errors a command write can report, and their codes (60_exceptions.md R230). -/
inductive ErrorCause where
  | illegalCmd
  | modZero
  deriving DecidableEq, Repr

/-- ERRCODE of an error (60_exceptions.md R230). -/
def errorCode : ErrorCause → BitVec 4
  | .illegalCmd => 1
  | .modZero => 2

/-- DONE, ERR and ERRCODE cleared, as every decoded command does first (30_encoding.md R105, 60_exceptions.md
R241). -/
def Status.cleared (st : Status) : Status := { st with done := false, err := false, errcode := 0 }

/-- The flags of an issue: BUSY <- 1 over cleared DONE, ERR and ERRCODE; OVR unchanged (30_encoding.md R105). -/
def Status.issued (st : Status) : Status := { st.cleared with busy := true }

/-- The flags of an error report: DONE <- 1, ERR <- 1, ERRCODE <- code; BUSY and OVR unchanged (60_exceptions.md
R239). -/
def Status.reported (st : Status) (c : ErrorCause) : Status :=
  { st with done := true, err := true, errcode := errorCode c }

/-- The flags of a dropped command: OVR <- 1 and nothing else (60_exceptions.md R233). -/
def Status.overrun (st : Status) : Status := { st with ovr := true }

/-- The flags of Complete: BUSY <- 0, DONE <- 1, the rest unchanged (30_encoding.md R106). -/
def Status.completed (st : Status) : Status := { st with busy := false, done := true }

/-- The flags after a STATUS write of v: each W1C bit written 1 clears, and ERR takes ERRCODE with it
(10_state.md R28). -/
def Status.writeOneClear (st : Status) (v : Word32) : Status :=
  { st with
    done := st.done && !v.getLsbD 1
    err := st.err && !v.getLsbD 2
    errcode := if v.getLsbD 2 then 0 else st.errcode
    ovr := st.ovr && !v.getLsbD 3 }

/-- The IRQEN register after a write of v: v[2:0] stored, v[31:3] ignored (10_state.md R29). -/
def irqenOfWord (v : Word32) : IrqEnable :=
  { doneIE := v.getLsbD 0, errIE := v.getLsbD 1, ovrIE := v.getLsbD 2 }

/-- The level of IRQ that STATUS and IRQEN give (60_exceptions.md R236). -/
def irqLevel (st : Status) (e : IrqEnable) : Bool :=
  (st.done && e.doneIE) || (st.err && e.errIE) || (st.ovr && e.ovrIE)

/-- The IRQ output, a function of STATUS and IRQEN and of nothing else (60_exceptions.md R236), in reset too (log 7). -/
def State.irq (s : State) : Bool := irqLevel s.status s.irqen

end Sys2Proof.Machine
end

