-- ==== Sys2Proof/Machine/Operands.lean ====
section
/-!
DEFINITION. Reading and writing the registers: the halves of a 64-bit register (10_state.md R21), the operands of
a command (30_encoding.md R95), the register map (20_memory.md R61), the words the window's registers
read as (R67), and the byte view of the window (R62).
-/

namespace Sys2Proof.Machine

/-- X_LO = X[31:0] (20_memory.md R61). -/
def loHalf (x : Word64) : Word32 := x.extractLsb' 0 32

/-- X_HI = X[63:32] (20_memory.md R61). -/
def hiHalf (x : Word64) : Word32 := x.extractLsb' 32 32

/-- X with X[31:0] <- v (20_memory.md R68). -/
def setLoHalf (x : Word64) (v : Word32) : Word64 := hiHalf x ++ v

/-- X with X[63:32] <- v (20_memory.md R68). -/
def setHiHalf (x : Word64) (v : Word32) : Word64 := v ++ loHalf x

/-- trunc_W of an operand register (00_scope.md R10, 30_encoding.md R95): at W = 32 the LO half, zero-extended. -/
def truncOperand : Width → Word64 → Word64
  | .w32, x => 0#32 ++ loHalf x
  | .w64, x => x

/-- The registers of the window, under the names of 30_encoding.md R100. -/
inductive Reg where
  | cmd | status | irqen | caps
  | aLo | aHi | bLo | bHi | mLo | mHi | nLo | nHi
  | resLo | resHi
  deriving DecidableEq, Repr

/-- The register map (20_memory.md R61). -/
def regOffset : Reg → Nat
  | .cmd => 0x00
  | .status => 0x04
  | .irqen => 0x08
  | .caps => 0x0C
  | .aLo => 0x10
  | .aHi => 0x14
  | .bLo => 0x18
  | .bHi => 0x1C
  | .mLo => 0x20
  | .mHi => 0x24
  | .nLo => 0x28
  | .nHi => 0x2C
  | .resLo => 0x30
  | .resHi => 0x34

/-- Every register of the window. -/
def allRegs : List Reg :=
  [.cmd, .status, .irqen, .caps, .aLo, .aHi, .bLo, .bHi, .mLo, .mHi, .nLo, .nHi, .resLo, .resHi]

/-- The register at an offset of the window, if there is one (20_memory.md R61, R66). -/
def regAt (off : Nat) : Option Reg := allRegs.find? fun r => regOffset r == off

/-- The STATUS word (10_state.md R28, 20_memory.md R67). -/
def statusWord (st : Status) : Word32 :=
  0#24 ++ st.errcode ++ BitVec.ofBool st.ovr ++ BitVec.ofBool st.err ++ BitVec.ofBool st.done ++
    BitVec.ofBool st.busy

/-- The IRQEN word (10_state.md R29, 20_memory.md R67). -/
def irqenWord (e : IrqEnable) : Word32 :=
  0#29 ++ BitVec.ofBool e.ovrIE ++ BitVec.ofBool e.errIE ++ BitVec.ofBool e.doneIE

/-- The CAPS word (10_state.md R30, 20_memory.md R67). -/
def capsWord (p : Params) : Word32 :=
  0#30 ++ BitVec.ofBool p.fast64 ++ BitVec.ofBool p.fast32

/-- What a register of the window reads as (20_memory.md R67). Reading has no side effect (R65). -/
def regRead (s : State) : Reg → Word32
  | .cmd => s.cmd
  | .status => statusWord s.status
  | .irqen => irqenWord s.irqen
  | .caps => capsWord s.params
  | .aLo => loHalf s.regA
  | .aHi => hiHalf s.regA
  | .bLo => loHalf s.regB
  | .bHi => hiHalf s.regB
  | .mLo => loHalf s.regM
  | .mHi => hiHalf s.regM
  | .nLo => loHalf s.regN
  | .nHi => hiHalf s.regN
  | .resLo => loHalf s.res
  | .resHi => hiHalf s.res

/-- What the word at an aligned offset reads as; a reserved offset reads 0 (20_memory.md R66, R67). -/
def windowWord (s : State) (off : Nat) : Word32 :=
  match regAt off with
  | some r => regRead s r
  | none => 0

/-- The byte at BASE + k, for k in the window: the byte at lane j of the register at off carries its bits
[8j+7:8j] (20_memory.md R62). It is a view of the window, not an access: only 32-bit accesses are defined (R64). -/
def windowByte (s : State) (k : Nat) : Byte :=
  (windowWord s (k - k % 4)).extractLsb' (8 * (k % 4)) 8

/-- The offset of an address in the window [BASE, BASE + 0x100); none outside it (20_memory.md R60). -/
def windowOffset (p : Params) (addr : Nat) : Option Nat :=
  if p.base ≤ addr ∧ addr < p.base + 0x100 then some (addr - p.base) else none

/-- An access that is not 32 bits wide or not 4-byte aligned (20_memory.md R63). -/
def badAccess (off size : Nat) : Bool := size != 4 || off % 4 != 0

end Sys2Proof.Machine
end

