-- ==== Sys2Proof/Machine/Ops.lean ====
section
/-!
DEFINITION. The named operations of the machine: the error report, which is the core's taking of an exception
(60_exceptions.md R239), and its acknowledgement beside it (R240); the dropped command (R233); issue
(30_encoding.md R105), Compute and Complete (R106, R107); the register writes (20_memory.md R68); and the reset event
(70_reset_and_hazards.md R270, R271).
-/

namespace Sys2Proof.Machine

/-- ErrorReport (60_exceptions.md R239): DONE, ERR and ERRCODE, and nothing else. It saves nothing and goes nowhere,
for the core has no control flow; CMD already holds the rejected word. -/
def errorReport (c : ErrorCause) (s : State) : State := { s with status := s.status.reported c }

/-- StatusW1C (10_state.md R28): the host's acknowledgement of an error, an overrun or a completion, which is all the
core has of a return from an exception (60_exceptions.md R240). -/
def statusWrite (v : Word32) (s : State) : State := { s with status := s.status.writeOneClear v }

/-- A CMD write while Busy (60_exceptions.md R233): OVR <- 1, and the word is lost. -/
def dropCommand (s : State) : State := { s with status := s.status.overrun }

/-- The word of a command write stored in CMD, and DONE, ERR, ERRCODE cleared (30_encoding.md R105). -/
def acceptWord (v : Word32) (s : State) : State := { s with cmd := v, status := s.status.cleared }

/-- The effective strategy, chosen at issue (30_encoding.md R101). -/
def effectiveStrategy (p : Params) (op : Op) (w : Width) (strat : Strategy) : Strategy :=
  match op, strat, w with
  | .pow, _, _ => .fast
  | _, .portable, _ => .portable
  | _, .fast, .w32 => if p.fast32 then .fast else .portable
  | _, .fast, .w64 => if p.fast64 then .fast else .portable

/-- The job an issue latches from the operand registers (30_encoding.md R95, R105). -/
def latchJob (f : Fields) (s : State) : Job where
  op := f.op
  width := f.width
  strat := effectiveStrategy s.params f.op f.width f.strat
  a := truncOperand f.width s.regA
  b := truncOperand f.width s.regB
  m := truncOperand f.width s.regM
  n := s.regN

/-- ENG <- Busy(job), BUSY <- 1 (30_encoding.md R105). -/
def startJob (j : Job) (s : State) : State := { s with eng := .busy j, status := s.status.issued }

/-- The operation needs a modulus (30_encoding.md R105, 60_exceptions.md R232). -/
def needsModulus : Op → Bool
  | .mulmod => true
  | .pow => false
  | .powmod => true
  | .geom => false

/-- A command word with fields f, known to be legal, is written to CMD (30_encoding.md R105). The order of the checks
is 60_exceptions.md R238: overrun, then m = 0. -/
def issueCommand (f : Fields) (s : State) : State :=
  match s.eng with
  | .busy _ => dropCommand s
  | .idle =>
    if needsModulus f.op && truncOperand f.width s.regM == 0 then
      errorReport .modZero (acceptWord (commandWord f) s)
    else startJob (latchJob f s) (acceptWord (commandWord f) s)

/-- An illegal word is written to CMD (30_encoding.md R98, 60_exceptions.md R231). -/
def rejectIllegal (v : Word32) (s : State) : State :=
  match s.eng with
  | .busy _ => dropCommand s
  | .idle => errorReport .illegalCmd (acceptWord v s)

/-- Compute, on the exact numbers (30_encoding.md R107). -/
def computeNat (op : Op) (strat : Strategy) (w a b m n : Nat) : Nat :=
  match op, strat with
  | .mulmod, .fast => mulmodWide a b m
  | .mulmod, .portable => mulmodSerial w a b m
  | .pow, _ => powUnit w a n
  | .powmod, .fast => powmodOver mulmodWide a n m
  | .powmod, .portable => powmodOver (mulmodSerial w) a n m
  | .geom, .fast => geomClosed w a n
  | .geom, .portable => geomPair w a n

/-- zext_64 of what a job computes (30_encoding.md R106, R107). -/
def computeJob (j : Job) : Word64 :=
  BitVec.ofNat 64 (computeNat j.op j.strat j.width.bits j.a.toNat j.b.toNat j.m.toNat j.n.toNat)

/-- Complete (30_encoding.md R106): RES <- the result, ENG <- Idle, BUSY <- 0, DONE <- 1. -/
def completeJob (j : Job) (s : State) : State :=
  { s with res := computeJob j, eng := .idle, status := s.status.completed }

/-- The engine's turn: Complete when it is Busy; it has no other step (30_encoding.md R106). -/
def engineTurn (s : State) : State :=
  match s.eng with
  | .idle => s
  | .busy j => completeJob j s

/-- A write of a register that only stores (20_memory.md R68): the operand halves and IRQEN. CAPS and RES are
read-only and ignore it. CMD and STATUS have operations of their own. -/
def plainWrite (r : Reg) (v : Word32) (s : State) : State :=
  match r with
  | .irqen => { s with irqen := irqenOfWord v }
  | .aLo => { s with regA := setLoHalf s.regA v }
  | .aHi => { s with regA := setHiHalf s.regA v }
  | .bLo => { s with regB := setLoHalf s.regB v }
  | .bHi => { s with regB := setHiHalf s.regB v }
  | .mLo => { s with regM := setLoHalf s.regM v }
  | .mHi => { s with regM := setHiHalf s.regM v }
  | .nLo => { s with regN := setLoHalf s.regN v }
  | .nHi => { s with regN := setHiHalf s.regN v }
  | .cmd => s
  | .status => s
  | .caps => s
  | .resLo => s
  | .resHi => s

/-- The response of a read (20_memory.md R67). -/
def readResponse (s : State) (off size : Nat) : Response :=
  if badAccess off size then .busError else .data (windowWord s off)

/-- What reset leaves (70_reset_and_hazards.md R270, R271): every register at its reset value, the job abandoned. The
build stays, and so do the turns still to come and the counter of free values. -/
def afterReset (s : State) : State :=
  { State.resetOf s.params with turns := s.turns, freeCount := s.freeCount }

/-- The state with these turns still to come. -/
def setTurns (ts : List Turn) (s : State) : State := { s with turns := ts }

/-- The reset input asserted (70_reset_and_hazards.md R270). -/
def assertReset (s : State) : State := { s with inReset := true }

/-- What a step leaves of the hidden working registers: a free value (10_state.md R35; log 5). -/
def refreshWork (s : State) : State :=
  { s with work := Config.freeWork s.freeCount, freeCount := s.freeCount + 1 }

/-- An outcome with its next state passed through f. -/
def mapNext (f : State → State) :
    Host.Outcome State Fault Refusal → Host.Outcome State Fault Refusal
  | .next s => .next (f s)
  | .fault r => .fault r
  | .refused r => .refused r

end Sys2Proof.Machine
end

