-- ==== Sys2Proof/Machine/Geom.lean ====
section
/-!
DEFINITION. GEOM, the geometric_series_mod_2w_engine's commands (43_geomseries.md R210 to R213).
A command's meaning is the write of its word to CMD: dropped while Busy, else issued (no check of M). Its result
is written by the engine's later step Complete (30_encoding.md R106; log 4).
-/

namespace Sys2Proof.Machine

/-- `geom.w32.closed` (R210). -/
def execGeomW32Closed (s : State) : Host.Outcome State Fault Refusal :=
  .next (issueCommand { op := .geom, width := .w32, strat := .fast } s)

/-- `geom.w32.pair` (R211). -/
def execGeomW32Pair (s : State) : Host.Outcome State Fault Refusal :=
  .next (issueCommand { op := .geom, width := .w32, strat := .portable } s)

/-- `geom.w64.closed` (R212). -/
def execGeomW64Closed (s : State) : Host.Outcome State Fault Refusal :=
  .next (issueCommand { op := .geom, width := .w64, strat := .fast } s)

/-- `geom.w64.pair` (R213). -/
def execGeomW64Pair (s : State) : Host.Outcome State Fault Refusal :=
  .next (issueCommand { op := .geom, width := .w64, strat := .portable } s)

end Sys2Proof.Machine
end

