-- ==== Sys2Proof/Machine/Mulmod.lean ====
section
/-!
DEFINITION. MULMOD, the modular_multiplier's commands (40_modmul.md R130 to R133).
A command's meaning is the write of its word to CMD: dropped while Busy, else issued (MOD_ZERO when the latched m is 0). Its result
is written by the engine's later step Complete (30_encoding.md R106; log 4).
-/

namespace Sys2Proof.Machine

/-- `mulmod.w32.wide` (R130). -/
def execMulmodW32Wide (s : State) : Host.Outcome State Fault Refusal :=
  .next (issueCommand { op := .mulmod, width := .w32, strat := .fast } s)

/-- `mulmod.w32.serial` (R131). -/
def execMulmodW32Serial (s : State) : Host.Outcome State Fault Refusal :=
  .next (issueCommand { op := .mulmod, width := .w32, strat := .portable } s)

/-- `mulmod.w64.wide` (R132). -/
def execMulmodW64Wide (s : State) : Host.Outcome State Fault Refusal :=
  .next (issueCommand { op := .mulmod, width := .w64, strat := .fast } s)

/-- `mulmod.w64.serial` (R133). -/
def execMulmodW64Serial (s : State) : Host.Outcome State Fault Refusal :=
  .next (issueCommand { op := .mulmod, width := .w64, strat := .portable } s)

end Sys2Proof.Machine
end

