-- ==== Sys2Proof/Machine/Pow.lean ====
section
/-!
DEFINITION. POW, the power_engine's commands (41_pow.md R155, R156).
A command's meaning is the write of its word to CMD: dropped while Busy, else issued (no check of M). Its result
is written by the engine's later step Complete (30_encoding.md R106; log 4).
-/

namespace Sys2Proof.Machine

/-- `pow.w32` (R155). -/
def execPowW32 (s : State) : Host.Outcome State Fault Refusal :=
  .next (issueCommand { op := .pow, width := .w32, strat := .fast } s)

/-- `pow.w64` (R156). -/
def execPowW64 (s : State) : Host.Outcome State Fault Refusal :=
  .next (issueCommand { op := .pow, width := .w64, strat := .fast } s)

end Sys2Proof.Machine
end

