-- ==== Sys2Proof/Machine/Powmod.lean ====
section
/-!
DEFINITION. POWMOD, the modular_exponentiation_engine's commands (42_powmod.md R175 to R178).
A command's meaning is the write of its word to CMD: dropped while Busy, else issued (MOD_ZERO when the latched m is 0). Its result
is written by the engine's later step Complete (30_encoding.md R106; log 4).
-/

namespace Sys2Proof.Machine

/-- `powmod.w32.wide` (R175). -/
def execPowmodW32Wide (s : State) : Host.Outcome State Fault Refusal :=
  .next (issueCommand { op := .powmod, width := .w32, strat := .fast } s)

/-- `powmod.w32.serial` (R176). -/
def execPowmodW32Serial (s : State) : Host.Outcome State Fault Refusal :=
  .next (issueCommand { op := .powmod, width := .w32, strat := .portable } s)

/-- `powmod.w64.wide` (R177). -/
def execPowmodW64Wide (s : State) : Host.Outcome State Fault Refusal :=
  .next (issueCommand { op := .powmod, width := .w64, strat := .fast } s)

/-- `powmod.w64.serial` (R178). -/
def execPowmodW64Serial (s : State) : Host.Outcome State Fault Refusal :=
  .next (issueCommand { op := .powmod, width := .w64, strat := .portable } s)

end Sys2Proof.Machine
end

