-- ==== Sys2Proof/Machine/Dispatch.lean ====
section
/-!
DEFINITION. What each command does when its word is written to CMD (30_encoding.md R105).
-/

namespace Sys2Proof.Machine

def exec (i : Instr) (s : State) : Host.Outcome State Fault Refusal :=
  match i with
  | .mulmodW32Wide => Sys2Proof.Machine.execMulmodW32Wide s
  | .mulmodW32Serial => Sys2Proof.Machine.execMulmodW32Serial s
  | .mulmodW64Wide => Sys2Proof.Machine.execMulmodW64Wide s
  | .mulmodW64Serial => Sys2Proof.Machine.execMulmodW64Serial s
  | .powW32 => Sys2Proof.Machine.execPowW32 s
  | .powW64 => Sys2Proof.Machine.execPowW64 s
  | .powmodW32Wide => Sys2Proof.Machine.execPowmodW32Wide s
  | .powmodW32Serial => Sys2Proof.Machine.execPowmodW32Serial s
  | .powmodW64Wide => Sys2Proof.Machine.execPowmodW64Wide s
  | .powmodW64Serial => Sys2Proof.Machine.execPowmodW64Serial s
  | .geomW32Closed => Sys2Proof.Machine.execGeomW32Closed s
  | .geomW32Pair => Sys2Proof.Machine.execGeomW32Pair s
  | .geomW64Closed => Sys2Proof.Machine.execGeomW64Closed s
  | .geomW64Pair => Sys2Proof.Machine.execGeomW64Pair s

end Sys2Proof.Machine
end

