-- ==== Sys2Proof/Machine/Bus.lean ====
section
/-!
DEFINITION. The agents' turns: the host's transactions (20_memory.md R60, R63, R67, R68), the command write
(30_encoding.md R105), the engine's turn and the reset input (70_reset_and_hazards.md R270).
-/

namespace Sys2Proof.Machine

/-- CommandWrite(v) (30_encoding.md R105): while Busy the word is dropped without being decoded (60_exceptions.md R233,
R238); else it is decoded, and is rejected or runs as the command it stands for. -/
def commandWrite (v : Word32) (s : State) : Host.Outcome State Fault Refusal :=
  match s.eng with
  | .busy _ => .next (dropCommand s)
  | .idle =>
    match decodeWord v with
    | .illegal _ => .next (rejectIllegal v s)
    | .ok i => exec i s

/-- A 32-bit write of v to what stands at an offset (20_memory.md R68); a reserved offset ignores it (R66). -/
def registerWrite (r : Option Reg) (v : Word32) (s : State) : Host.Outcome State Fault Refusal :=
  match r with
  | none => .next s
  | some .cmd => commandWrite v s
  | some .status => .next (statusWrite v s)
  | some r => .next (plainWrite r v s)

/-- The state with this response given. -/
def respond (a : Response) (s : State) : State := { s with response := a }

/-- MemWrite(off, size, v) (20_memory.md R68). A bus error changes nothing (R63). -/
def writeAccess (off size : Nat) (v : Word32) (s : State) : Host.Outcome State Fault Refusal :=
  if badAccess off size then .next (respond .busError s)
  else mapNext (respond .written) (registerWrite (regAt off) v s)

/-- One host transaction. An address outside the window is not decoded: the core does not answer and does nothing
(20_memory.md R60; log 9). -/
def hostAccess (t : Transaction) (s : State) : Host.Outcome State Fault Refusal :=
  match t with
  | .read addr size =>
    match windowOffset s.params addr with
    | none => .next (respond .silent s)
    | some off => .next (respond (readResponse s off size) s)
  | .write addr size v =>
    match windowOffset s.params addr with
    | none => .next (respond .silent s)
    | some off => writeAccess off size v s

/-- A turn while the reset input is asserted (70_reset_and_hazards.md R270): the core takes no transaction and the
engine does not move; the release puts every register at its reset value (log 6). -/
def turnInReset (t : Turn) (s : State) : State :=
  match t with
  | .host _ => respond .silent s
  | .engine => s
  | .resetAssert => s
  | .resetRelease => afterReset s

/-- One turn (20_memory.md R70). -/
def takeTurn (t : Turn) (s : State) : Host.Outcome State Fault Refusal :=
  if s.inReset then .next (turnInReset t s)
  else
    match t with
    | .host x => hostAccess x s
    | .engine => .next (engineTurn s)
    | .resetAssert => .next (assertReset s)
    | .resetRelease => .next s

/-- Nothing more arrives from outside: a Busy engine completes (weak fairness, 30_encoding.md R106); an idle core, or
one held in reset, stays as it is (log 3). -/
def quietTurn (s : State) : State := if s.inReset then s else engineTurn s

/-- The next turn of a state, taken. -/
def nextTurn (s : State) : Host.Outcome State Fault Refusal :=
  match s.turns with
  | [] => .next (quietTurn s)
  | t :: rest => takeTurn t (setTurns rest s)

/-- The turn of a 32-bit host write of a register of the window. -/
def writeTurn (p : Params) (r : Reg) (v : Word32) : Turn := .host (.write (p.base + regOffset r) 4 v)

/-- The turn of a 32-bit host read of a register of the window. -/
def readTurn (p : Params) (r : Reg) : Turn := .host (.read (p.base + regOffset r) 4)

end Sys2Proof.Machine
end

