-- ==== Sys2Proof/Machine/Step.lean ====
section
/-!
DEFINITION. One step of the machine: the next turn, taken, and the hidden working registers left free. And how an
instruction is placed where the next step takes it.
-/

namespace Sys2Proof.Machine

/-- One atomic step (20_memory.md R64, R70). -/
def step (s : State) : Host.Outcome State Fault Refusal := mapNext refreshWork (nextTurn s)

/-- The state with a host write of the instruction's bits to CMD as the very next turn, and reset released. The core
fetches nothing (10_state.md R25): an instruction is supplied by that write (log 4). -/
def State.withFetchWord (s : State) (nbits w : Nat) : State :=
  { s with
    inReset := false
    turns := writeTurn s.params .cmd (BitVec.ofNat 32 (w % 2 ^ nbits)) :: s.turns }

end Sys2Proof.Machine
end

