-- ==== Sys2Proof/Machine/Script.lean ====
section
/-!
DEFINITION. The host-script syntax (30_encoding.md R100, R102): the transactions each line of a script stands for. A script
is the host's program, outside the core; this file only says which turns it supplies.
-/

namespace Sys2Proof.Machine

/-- The 64-bit registers a script names. -/
inductive Reg64 where
  | a | b | m | n | res
  deriving DecidableEq, Repr

/-- X_LO. -/
def lowReg : Reg64 → Reg
  | .a => .aLo
  | .b => .bLo
  | .m => .mLo
  | .n => .nLo
  | .res => .resLo

/-- X_HI. -/
def highReg : Reg64 → Reg
  | .a => .aHi
  | .b => .bHi
  | .m => .mHi
  | .n => .nHi
  | .res => .resHi

/-- A line of a host script (30_encoding.md R100) or a pseudo-instruction (R102). -/
inductive ScriptLine where
  /-- `sw REG, imm32` -/
  | sw (r : Reg) (v : Word32)
  /-- `sw CMD, <mnemonic>` -/
  | swCmd (i : Instr)
  /-- `lw REG` -/
  | lw (r : Reg)
  /-- `li64 X, imm64` -/
  | li64 (x : Reg64) (v : Word64)
  /-- `issue <mnemonic>` -/
  | issue (i : Instr)
  /-- `wait_done`, in a run where its loop reads STATUS this many times (log 12). -/
  | waitDone (reads : Nat)
  /-- `rd64 X` -/
  | rd64 (x : Reg64)
  /-- `clrstat` -/
  | clrstat
  deriving DecidableEq, Repr

/-- The turns a line supplies (30_encoding.md R100, R102). -/
def expandLine (p : Params) : ScriptLine → List Turn
  | .sw r v => [writeTurn p r v]
  | .swCmd i => [writeTurn p .cmd (encode i)]
  | .lw r => [readTurn p r]
  | .li64 x v => [writeTurn p (lowReg x) (loHalf v), writeTurn p (highReg x) (hiHalf v)]
  | .issue i => [writeTurn p .cmd (encode i)]
  | .waitDone k => List.replicate k (readTurn p .status)
  | .rd64 x => [readTurn p (lowReg x), readTurn p (highReg x)]
  | .clrstat => [writeTurn p .status 0x0000000E]

/-- The loop of `wait_done` ends at a response that reads BUSY = 0 (30_encoding.md R102). -/
def waitDoneEnds : Response → Bool
  | .data v => !v.getLsbD 0
  | _ => false

end Sys2Proof.Machine
end

