-- ==== Sys2Proof/Safety.lean ====
section
/-!
DEFINITION. What a well-formed state of the running machine is, and what a run free of errors is, in the terms the
statements use.
-/

namespace Sys2Proof.Machine

/-- A job that an issue can produce on this build (10_state.md R34, 30_encoding.md R101, R105): a, b and m are
below 2^W, the modulus a command needs is not 0, and the strategy is the effective one of some command. -/
def Job.Valid (p : Params) (j : Job) : Prop :=
  j.a.toNat < 2 ^ j.width.bits ∧ j.b.toNat < 2 ^ j.width.bits ∧ j.m.toNat < 2 ^ j.width.bits ∧
  (needsModulus j.op = true → j.m ≠ 0) ∧
  ∃ strat, Fields.wellFormed ⟨j.op, j.width, strat⟩ = true ∧
    j.strat = effectiveStrategy p j.op j.width strat

/-- The job runs the command word w on this build: w is a legal word with the job's operation and width, and the job's
strategy is the effective one of what w asks for (10_state.md R27, 30_encoding.md R101). -/
def Job.Runs (p : Params) (w : Word32) (j : Job) : Prop :=
  ∃ i, decodeWord w = .ok i ∧ j.op = i.fields.op ∧ j.width = i.fields.width ∧
    j.strat = effectiveStrategy p i.fields.op i.fields.width i.fields.strat

/-- What holds of every state of the core that a run reaches:
BUSY = 1 exactly when ENG = Busy (10_state.md R34); ERRCODE ≠ 0 exactly when ERR = 1 (R28); ERRCODE is 0, 1 or 2
(60_exceptions.md R230); while Busy, DONE and ERR are 0 (95_test_vectors.md STS-3), CMD holds the word of the command being
executed (10_state.md R27), and the job is one that issue produces (R34). -/
structure State.Inv (s : State) : Prop where
  busy_iff : s.status.busy = true ↔ s.eng ≠ .idle
  err_iff : s.status.err = true ↔ s.status.errcode ≠ 0
  code_le : s.status.errcode.toNat ≤ 2
  busy_quiet : s.status.busy = true → s.status.done = false ∧ s.status.err = false
  job_valid : ∀ j, s.eng = .busy j → j.Valid s.params
  job_runs : ∀ j, s.eng = .busy j → j.Runs s.params s.cmd

/-- No command has been reported in error: the premise of a claim about software that meets the modulus precondition
(60_exceptions.md R239, 70_reset_and_hazards.md R280). -/
def State.ErrorFree (s : State) : Prop := s.status.err = false

/-- t is what k steps of the machine make of s. -/
def StepsTo : Nat → State → State → Prop
  | 0, s, t => s = t
  | k + 1, s, t => ∃ u, step s = .next u ∧ StepsTo k u t

end Sys2Proof.Machine
end

