-- ==== Sys2Proof/Certificates/Slice0/Obligations.lean ====
section
/-!
DEFINITION. The statements for the provers. Each docstring says which words of the spec the statement formalises; a clause that
rests on a choice of the model names its log entry.
-/

open Sys2Proof Sys2Proof.Machine

/-! ### Encoding -/

/-- 30_encoding.md R97, the rows of the opcode map: each listed word decodes to its command. -/
def Obligations.ListedWordsDecode : Prop :=
  decodeWord 0x00000000#32 = .ok .mulmodW32Wide ∧ decodeWord 0x00000100#32 = .ok .mulmodW32Serial ∧
  decodeWord 0x00000010#32 = .ok .mulmodW64Wide ∧ decodeWord 0x00000110#32 = .ok .mulmodW64Serial ∧
  decodeWord 0x00000001#32 = .ok .powW32 ∧ decodeWord 0x00000011#32 = .ok .powW64 ∧
  decodeWord 0x00000002#32 = .ok .powmodW32Wide ∧ decodeWord 0x00000102#32 = .ok .powmodW32Serial ∧
  decodeWord 0x00000012#32 = .ok .powmodW64Wide ∧ decodeWord 0x00000112#32 = .ok .powmodW64Serial ∧
  decodeWord 0x00000003#32 = .ok .geomW32Closed ∧ decodeWord 0x00000103#32 = .ok .geomW32Pair ∧
  decodeWord 0x00000013#32 = .ok .geomW64Closed ∧ decodeWord 0x00000113#32 = .ok .geomW64Pair

/-- 30_encoding.md R97: every bit of every row's word is fixed, so on all 2^32 words a word decodes to a command exactly
when it is the command's one word. -/
def Obligations.DecodeInvertsEncodeOnEveryWord : Prop :=
  (∀ (v : Word32) (i : Instr), decodeWord v = .ok i ↔ v = encode i) ∧
  encode .mulmodW32Wide = 0x00000000#32 ∧ encode .mulmodW32Serial = 0x00000100#32 ∧
  encode .mulmodW64Wide = 0x00000010#32 ∧ encode .mulmodW64Serial = 0x00000110#32 ∧
  encode .powW32 = 0x00000001#32 ∧ encode .powW64 = 0x00000011#32 ∧
  encode .powmodW32Wide = 0x00000002#32 ∧ encode .powmodW32Serial = 0x00000102#32 ∧
  encode .powmodW64Wide = 0x00000012#32 ∧ encode .powmodW64Serial = 0x00000112#32 ∧
  encode .geomW32Closed = 0x00000003#32 ∧ encode .geomW32Pair = 0x00000103#32 ∧
  encode .geomW64Closed = 0x00000013#32 ∧ encode .geomW64Pair = 0x00000113#32

/-- 30_encoding.md R94: a word with bit [3], [7:5] or [31:9] set is illegal, and no command has two encodings. -/
def Obligations.ReservedBitsMakeAWordIllegal : Prop :=
  (∀ v : Word32, (v.getLsbD 3 = true ∨ v.extractLsb' 5 3 ≠ 0 ∨ v.extractLsb' 9 23 ≠ 0) →
    ∃ e, decodeWord v = .illegal e) ∧
  (∀ (v v' : Word32) (i : Instr), decodeWord v = .ok i → decodeWord v' = .ok i → v = v')

/-- 60_exceptions.md R231, the list of illegal words: those with a reserved bit set, those with OP 4 to 7, and POW with STRAT = 1. -/
def Obligations.IllegalWordsAreTheListedOnes : Prop :=
  ∀ v : Word32, (∃ e, decodeWord v = .illegal e) ↔
    ((v.getLsbD 3 = true ∨ v.extractLsb' 5 3 ≠ 0 ∨ v.extractLsb' 9 23 ≠ 0) ∨
      4 ≤ (v.extractLsb' 0 3).toNat ∨ ((v.extractLsb' 0 3).toNat = 1 ∧ v.getLsbD 8 = true))

/-- 20_memory.md R62 and 30_encoding.md R99: the four bytes of a command's word, lowest lane first, decode to the
command and leave the bytes after them. -/
def Obligations.EncodedBytesDecode : Prop :=
  ∀ (i : Instr) (rest : List Byte), decodeBytes (encodeBytes i ++ rest) = .ok (i, rest)

/-! ### The units -/

/-- 40_modmul.md R122: the bounded modular add is (x + y) mod m, and no intermediate value leaves [0, 2^W). -/
def Obligations.BoundedAddIsModularAdd : Prop :=
  ∀ W x y m : Nat, x < m → y < m → 1 ≤ m → m ≤ 2 ^ W - 1 →
    addmod x y m = (x + y) % m ∧ addmod x y m < m ∧
    m - y < 2 ^ W ∧ (x ≥ m - y → x - (m - y) < 2 ^ W) ∧ (¬ x ≥ m - y → x + y < 2 ^ W)

/-- 40_modmul.md R123: b' is b below m, b - m below 2m, and in every case b mod m. -/
def Obligations.OperandIsFullyReduced : Prop :=
  ∀ b m : Nat, 1 ≤ m →
    (b < m → reduceOperand b m = b) ∧ (m ≤ b → b < 2 * m → reduceOperand b m = b - m) ∧
    reduceOperand b m = b % m

/-- 40_modmul.md R124, its invariant: at the start of iteration i, result = (b * (a mod 2^i)) mod m and
temp_b = (b * 2^i) mod m; both stay below m. -/
def Obligations.SerialLoopKeepsItsInvariant : Prop :=
  ∀ a b m i : Nat, 1 ≤ m →
    serialLoop a b m i = (b * (a % 2 ^ i) % m, b * 2 ^ i % m) ∧
    (serialLoop a b m i).1 < m ∧ (serialLoop a b m i).2 < m

/-- 40_modmul.md R125: the two strategies of ModMul agree with each other and with the contract. -/
def Obligations.MulmodStrategiesAgree : Prop :=
  ∀ W a b m : Nat, (W = 32 ∨ W = 64) → a < 2 ^ W → b < 2 ^ W → 1 ≤ m → m ≤ 2 ^ W - 1 →
    mulmodSerial W a b m = mulmodWide a b m ∧ mulmodWide a b m = a * b % m

/-- 41_pow.md R150: Pow is base^n mod 2^W for every base and every 64-bit count, with base^0 = 1. -/
def Obligations.PowUnitIsThePower : Prop :=
  ∀ W base n : Nat, (W = 32 ∨ W = 64) → base < 2 ^ W → n ≤ 2 ^ 64 - 1 →
    powUnit W base n = base ^ n % 2 ^ W ∧ powUnit W base 0 = 1

/-- 41_pow.md R152: for odd x, pow(x, 2^W - 1) is the inverse of x mod 2^W. -/
def Obligations.PowInvertsOddValues : Prop :=
  ∀ W x : Nat, (W = 32 ∨ W = 64) → x < 2 ^ W → x % 2 = 1 →
    x * powUnit W x (2 ^ W - 1) % 2 ^ W = 1

/-- 41_pow.md R153: for an even base the same call returns 0. -/
def Obligations.PowOfEvenBaseVanishes : Prop :=
  ∀ W base : Nat, (W = 32 ∨ W = 64) → base < 2 ^ W → base % 2 = 0 → powUnit W base (2 ^ W - 1) = 0

/-- 42_powmod.md R172: the accumulator starts at 1 mod m, so a count of 0 gives 0 when m = 1 and 1 otherwise,
over either multiplier. -/
def Obligations.PowmodStartsAtOneModM : Prop :=
  ∀ W base m : Nat, 1 ≤ m →
    powmodOver mulmodWide base 0 m = (if m = 1 then 0 else 1) ∧
    powmodOver (mulmodSerial W) base 0 m = (if m = 1 then 0 else 1)

/-- 42_powmod.md R173: ModPow over either multiplier is base^n mod m, and the source's property of a sum of counts. -/
def Obligations.PowmodMultipliersAgree : Prop :=
  ∀ W base n m : Nat, (W = 32 ∨ W = 64) → base < 2 ^ W → n < 2 ^ 64 → 1 ≤ m → m ≤ 2 ^ W - 1 →
    powmodOver mulmodWide base n m = base ^ n % m ∧
    powmodOver (mulmodSerial W) base n m = base ^ n % m ∧
    (∀ n1 n2 : Nat, n = n1 + n2 →
      powmodOver mulmodWide base n m =
        mulmodWide (powmodOver mulmodWide base n1 m) (powmodOver mulmodWide base n2 m) m ∧
      powmodOver (mulmodSerial W) base n m =
        mulmodSerial W (powmodOver (mulmodSerial W) base n1 m) (powmodOver (mulmodSerial W) base n2 m) m)

/-- 43_geomseries.md R199 and R201, the pairing loop's invariant: what the loop returns is result + mult times the
series of temp_r with e terms, mod 2^W, whenever the fuel covers e. -/
def Obligations.PairingLoopKeepsItsInvariant : Prop :=
  ∀ W fuel result mult tempR e : Nat, (W = 32 ∨ W = 64) → 1 ≤ e → e < 2 ^ (fuel + 1) → e < 2 ^ 64 →
    pairLoop W fuel result mult tempR e = (result + mult * ∑ i ∈ Finset.range e, tempR ^ i) % 2 ^ W

/-- 43_geomseries.md R202: the two strategies of GEOM agree with each other and with the contract, for every r and n. -/
def Obligations.GeomStrategiesAgree : Prop :=
  ∀ W r n : Nat, (W = 32 ∨ W = 64) → r < 2 ^ W → n < 2 ^ 64 →
    geomClosed W r n = geomPair W r n ∧ geomPair W r n = (∑ i ∈ Finset.range n, r ^ i) % 2 ^ W

/-- 43_geomseries.md R191: at r = 1 the contract and both strategies give n mod 2^W. -/
def Obligations.GeomAtRatioOneIsTheCount : Prop :=
  ∀ W n : Nat, (W = 32 ∨ W = 64) → n < 2 ^ 64 →
    geomContract W 1 n = n % 2 ^ W ∧ geomClosed W 1 n = n % 2 ^ W ∧ geomPair W 1 n = n % 2 ^ W

/-- 43_geomseries.md R203: the recurrence, for the contract and for both strategies. -/
def Obligations.GeomRecurrence : Prop :=
  ∀ W r n : Nat, (W = 32 ∨ W = 64) → r < 2 ^ W → n + 1 < 2 ^ 64 →
    geomContract W r (n + 1) = (geomContract W r n * r + 1) % 2 ^ W ∧
    geomClosed W r (n + 1) = (geomClosed W r n * r + 1) % 2 ^ W ∧
    geomPair W r (n + 1) = (geomPair W r n * r + 1) % 2 ^ W

/-- 30_encoding.md R107: for every job that issue can produce, Compute returns the value of the operation's contract
(40_modmul.md R120, 41_pow.md R150, 42_powmod.md R170, 43_geomseries.md R190), and it is below 2^W. -/
def Obligations.ComputeReturnsTheContract : Prop :=
  ∀ (p : Params) (j : Job), j.Valid p →
    (j.op = .mulmod → (computeJob j).toNat = j.a.toNat * j.b.toNat % j.m.toNat) ∧
    (j.op = .pow → (computeJob j).toNat = j.a.toNat ^ j.n.toNat % 2 ^ j.width.bits) ∧
    (j.op = .powmod → (computeJob j).toNat = j.a.toNat ^ j.n.toNat % j.m.toNat) ∧
    (j.op = .geom → (computeJob j).toNat =
      (∑ i ∈ Finset.range j.n.toNat, j.a.toNat ^ i) % 2 ^ j.width.bits) ∧
    (computeJob j).toNat < 2 ^ j.width.bits

/-! ### The commands: each issues, and Complete writes its result. The equations name every field that changes, so they are
the frames too. -/

/-- 40_modmul.md R130 to R133, with 30_encoding.md R95, R101, R105 and R106: with ENG Idle and a modulus that is not 0 at the
command's width, each MULMOD command issues (CMD, the flags, ENG Busy with the latched job; nothing else), and Complete
then writes (a * b) mod m to RES, sets DONE and ends Idle; nothing else. -/
def Obligations.MulmodCommandsIssueAndComplete : Prop :=
  ∀ (i : Instr) (W : Nat) (asked : Strategy) (s : State),
    (i, W, asked) ∈ [(.mulmodW32Wide, 32, .fast), (.mulmodW32Serial, 32, .portable),
      (.mulmodW64Wide, 64, .fast), (.mulmodW64Serial, 64, .portable)] →
    s.eng = .idle → s.regM.toNat % 2 ^ W ≠ 0 →
    ∃ (t : State) (j : Job), exec i s = .next t ∧
      t = { s with
        cmd := encode i
        eng := .busy j
        status := { busy := true, done := false, err := false, errcode := 0, ovr := s.status.ovr } } ∧
      j.op = .mulmod ∧ j.width.bits = W ∧
      j.strat = (if asked = .fast ∧ (if W = 32 then s.params.fast32 else s.params.fast64) = true
        then .fast else .portable) ∧
      j.a.toNat = s.regA.toNat % 2 ^ W ∧ j.b.toNat = s.regB.toNat % 2 ^ W ∧
      j.m.toNat = s.regM.toNat % 2 ^ W ∧ j.n = s.regN ∧
      engineTurn t = { s with
        cmd := encode i
        res := BitVec.ofNat 64
          ((s.regA.toNat % 2 ^ W) * (s.regB.toNat % 2 ^ W) % (s.regM.toNat % 2 ^ W))
        status := { busy := false, done := true, err := false, errcode := 0, ovr := s.status.ovr } }

/-- 41_pow.md R155 and R156: with ENG Idle, each POW command issues, whatever M holds, and Complete writes
base^n mod 2^W to RES. -/
def Obligations.PowCommandsIssueAndComplete : Prop :=
  ∀ (i : Instr) (W : Nat) (s : State),
    (i, W) ∈ [(.powW32, 32), (.powW64, 64)] →
    s.eng = .idle →
    ∃ (t : State) (j : Job), exec i s = .next t ∧
      t = { s with
        cmd := encode i
        eng := .busy j
        status := { busy := true, done := false, err := false, errcode := 0, ovr := s.status.ovr } } ∧
      j.op = .pow ∧ j.width.bits = W ∧ j.strat = .fast ∧
      j.a.toNat = s.regA.toNat % 2 ^ W ∧ j.b.toNat = s.regB.toNat % 2 ^ W ∧
      j.m.toNat = s.regM.toNat % 2 ^ W ∧ j.n = s.regN ∧
      engineTurn t = { s with
        cmd := encode i
        res := BitVec.ofNat 64 ((s.regA.toNat % 2 ^ W) ^ s.regN.toNat % 2 ^ W)
        status := { busy := false, done := true, err := false, errcode := 0, ovr := s.status.ovr } }

/-- 42_powmod.md R175 to R178: with ENG Idle and a modulus that is not 0 at the command's width, each POWMOD command
issues, and Complete writes base^n mod m to RES. -/
def Obligations.PowmodCommandsIssueAndComplete : Prop :=
  ∀ (i : Instr) (W : Nat) (asked : Strategy) (s : State),
    (i, W, asked) ∈ [(.powmodW32Wide, 32, .fast), (.powmodW32Serial, 32, .portable),
      (.powmodW64Wide, 64, .fast), (.powmodW64Serial, 64, .portable)] →
    s.eng = .idle → s.regM.toNat % 2 ^ W ≠ 0 →
    ∃ (t : State) (j : Job), exec i s = .next t ∧
      t = { s with
        cmd := encode i
        eng := .busy j
        status := { busy := true, done := false, err := false, errcode := 0, ovr := s.status.ovr } } ∧
      j.op = .powmod ∧ j.width.bits = W ∧
      j.strat = (if asked = .fast ∧ (if W = 32 then s.params.fast32 else s.params.fast64) = true
        then .fast else .portable) ∧
      j.a.toNat = s.regA.toNat % 2 ^ W ∧ j.b.toNat = s.regB.toNat % 2 ^ W ∧
      j.m.toNat = s.regM.toNat % 2 ^ W ∧ j.n = s.regN ∧
      engineTurn t = { s with
        cmd := encode i
        res := BitVec.ofNat 64 ((s.regA.toNat % 2 ^ W) ^ s.regN.toNat % (s.regM.toNat % 2 ^ W))
        status := { busy := false, done := true, err := false, errcode := 0, ovr := s.status.ovr } }

/-- 43_geomseries.md R210 to R213: with ENG Idle, each GEOM command issues, whatever M holds, and Complete writes
(1 + r + ... + r^(n-1)) mod 2^W to RES. -/
def Obligations.GeomCommandsIssueAndComplete : Prop :=
  ∀ (i : Instr) (W : Nat) (asked : Strategy) (s : State),
    (i, W, asked) ∈ [(.geomW32Closed, 32, .fast), (.geomW32Pair, 32, .portable),
      (.geomW64Closed, 64, .fast), (.geomW64Pair, 64, .portable)] →
    s.eng = .idle →
    ∃ (t : State) (j : Job), exec i s = .next t ∧
      t = { s with
        cmd := encode i
        eng := .busy j
        status := { busy := true, done := false, err := false, errcode := 0, ovr := s.status.ovr } } ∧
      j.op = .geom ∧ j.width.bits = W ∧
      j.strat = (if asked = .fast ∧ (if W = 32 then s.params.fast32 else s.params.fast64) = true
        then .fast else .portable) ∧
      j.a.toNat = s.regA.toNat % 2 ^ W ∧ j.b.toNat = s.regB.toNat % 2 ^ W ∧
      j.m.toNat = s.regM.toNat % 2 ^ W ∧ j.n = s.regN ∧
      engineTurn t = { s with
        cmd := encode i
        res := BitVec.ofNat 64
          ((∑ k ∈ Finset.range s.regN.toNat, (s.regA.toNat % 2 ^ W) ^ k) % 2 ^ W)
        status := { busy := false, done := true, err := false, errcode := 0, ovr := s.status.ovr } }

/-- 60_exceptions.md R232: with ENG Idle and m = 0 at the command's width (at W = 32 only M_LO is looked at), each MULMOD and
POWMOD command reports MOD_ZERO and writes no result; POW and GEOM never report it. -/
def Obligations.ModZeroIsReported : Prop :=
  (∀ (i : Instr) (W : Nat) (s : State),
    (i, W) ∈ [(.mulmodW32Wide, 32), (.mulmodW32Serial, 32), (.mulmodW64Wide, 64), (.mulmodW64Serial, 64),
      (.powmodW32Wide, 32), (.powmodW32Serial, 32), (.powmodW64Wide, 64), (.powmodW64Serial, 64)] →
    s.eng = .idle → s.regM.toNat % 2 ^ W = 0 →
    exec i s = .next { s with
      cmd := encode i
      status := { s.status with done := true, err := true, errcode := 2 } }) ∧
  (∀ (i : Instr) (s : State),
    i ∈ [.powW32, .powW64, .geomW32Closed, .geomW32Pair, .geomW64Closed, .geomW64Pair] →
    s.eng = .idle → ∃ t, exec i s = .next t ∧ t.status.err = false ∧ t.status.errcode = 0)

/-- 30_encoding.md R98: every word that R97 does not list, written to CMD while Idle, is stored in CMD and rejected with
ILLEGAL_CMD; nothing else changes. -/
def Obligations.IllegalCommandIsReported : Prop :=
  ∀ (v : Word32) (s : State), (∀ i : Instr, v ≠ encode i) → s.eng = .idle →
    commandWrite v s = .next { s with
      cmd := v
      status := { s.status with done := true, err := true, errcode := 1 } }

/-- 60_exceptions.md R233: a CMD write while Busy sets OVR and does nothing else, whatever the word; and OVR stays 1 until the
host writes 1 to STATUS bit 3 or a reset occurs. (That a reset takes OVR away at its release, and not at its assertion, is the
model's: log 6.) -/
def Obligations.OverrunDropsTheCommandAndSticks : Prop :=
  (∀ (v : Word32) (s : State) (j : Job), s.eng = .busy j →
    commandWrite v s = .next { s with status := { s.status with ovr := true } }) ∧
  (∀ (i : Instr) (s : State) (j : Job), s.eng = .busy j →
    exec i s = .next { s with status := { s.status with ovr := true } }) ∧
  (∀ s t : State, s.status.ovr = true → step s = .next t →
    t.status.ovr = true ∨
    (s.inReset = false ∧ ∃ v rest, s.turns = .host (.write (s.params.base + 4) 4 v) :: rest ∧
      v.getLsbD 3 = true) ∨
    (s.inReset = true ∧ ∃ rest, s.turns = .resetRelease :: rest))

/-- 30_encoding.md R108: no command writes an operand register, RES at its issue, IRQEN or the build; of the window's bytes
only those of CMD and STATUS (offsets 0 to 7) can change. -/
def Obligations.CommandsChangeOnlyCmdStatusAndEngine : Prop :=
  ∀ (i : Instr) (s t : State), exec i s = .next t →
    t.regA = s.regA ∧ t.regB = s.regB ∧ t.regM = s.regM ∧ t.regN = s.regN ∧ t.res = s.res ∧
    t.irqen = s.irqen ∧ t.params = s.params ∧ t.status.ovr = (s.status.ovr || decide (s.eng ≠ .idle)) ∧
    (s.eng ≠ .idle → t.cmd = s.cmd ∧ t.eng = s.eng) ∧ (s.eng = .idle → t.cmd = encode i) ∧
    t.inReset = s.inReset ∧ t.turns = s.turns ∧ t.response = s.response ∧ t.work = s.work ∧
    ∀ k, 8 ≤ k → windowByte t k = windowByte s k

/-- 10_state.md R23: a register a command does not read has no effect on it. Two idle states that agree on what the
operation reads at its width (and on the flags, RES and the build) end the command with the same RES and STATUS. -/
def Obligations.UnreadOperandsHaveNoEffect : Prop :=
  ∀ (i : Instr) (s s' t t' : State),
    s.eng = .idle → s'.eng = .idle → s'.params = s.params → s'.status = s.status → s'.res = s.res →
    s'.regA.toNat % 2 ^ i.fields.width.bits = s.regA.toNat % 2 ^ i.fields.width.bits →
    (i.fields.op = .mulmod →
      s'.regB.toNat % 2 ^ i.fields.width.bits = s.regB.toNat % 2 ^ i.fields.width.bits) →
    (i.fields.op = .mulmod ∨ i.fields.op = .powmod →
      s'.regM.toNat % 2 ^ i.fields.width.bits = s.regM.toNat % 2 ^ i.fields.width.bits) →
    (i.fields.op ≠ .mulmod → s'.regN = s.regN) →
    exec i s = .next t → exec i s' = .next t' →
    (engineTurn t').res = (engineTurn t).res ∧ (engineTurn t').status = (engineTurn t).status

/-- 00_scope.md R19 and 30_encoding.md R101: two commands that differ only in STRAT, on builds that differ only in FAST32 and
FAST64 (and BASE), end with the same RES and the same STATUS. -/
def Obligations.StrategyAndBuildNeverChangeTheResult : Prop :=
  ∀ (i i' : Instr) (s t t' : State) (p' : Params),
    i'.fields.op = i.fields.op → i'.fields.width = i.fields.width → s.eng = .idle →
    exec i s = .next t → exec i' { s with params := p' } = .next t' →
    (engineTurn t').res = (engineTurn t).res ∧ (engineTurn t').status = (engineTurn t).status

/-! ### Steps -/

/-- 30_encoding.md R105 with 10_state.md R25: when the next turn is a 32-bit write of v to CMD and reset is not asserted, the step is
CommandWrite of v, whatever v is: exec of i where v decodes to i, and while Idle the report of ILLEGAL_CMD where v is no command's
word (R98); with the turn taken off, the write answered, and the hidden working registers left free (the last two are the model's:
logs 5 and 8). The same for an instruction placed by withFetchWord (log 4). -/
def Obligations.StepRunsTheDecodedCommand : Prop :=
  (∀ (s : State) (v : Word32) (rest : List Turn),
    s.inReset = false → s.turns = .host (.write s.params.base 4 v) :: rest →
    step s = mapNext (fun t => refreshWork (respond .written t)) (commandWrite v { s with turns := rest })) ∧
  (∀ (s : State) (v : Word32) (rest : List Turn),
    s.inReset = false → s.turns = .host (.write s.params.base 4 v) :: rest → s.eng = .idle → (∀ i : Instr, v ≠ encode i) →
    step s = .next (refreshWork { s with
      turns := rest
      response := .written
      cmd := v
      status := { s.status with done := true, err := true, errcode := 1 } })) ∧
  (∀ (s : State) (v : Word32) (i : Instr) (rest : List Turn),
    s.inReset = false → s.turns = .host (.write s.params.base 4 v) :: rest → decodeWord v = .ok i →
    step s = mapNext (fun t => refreshWork (respond .written t)) (exec i { s with turns := rest })) ∧
  (∀ (s : State) (i : Instr),
    step (s.withFetchWord 32 (encode i).toNat) =
      mapNext (fun t => refreshWork (respond .written t)) (exec i { s with inReset := false }))

/-- 30_encoding.md R106, the step Complete: when the next turn is the engine's, the engine is Busy and reset is not asserted, RES takes
the job's value, ENG becomes Idle, BUSY 0 and DONE 1; of the rest only the turn is taken off and the hidden working registers
are left free (log 5). -/
def Obligations.CompleteWritesTheResult : Prop :=
  ∀ (s : State) (j : Job) (rest : List Turn),
    s.inReset = false → s.eng = .busy j → s.turns = .engine :: rest →
    step s = .next (refreshWork { s with
      turns := rest
      res := computeJob j
      eng := .idle
      status := { s.status with busy := false, done := true } })

/-- 30_encoding.md R106, "a Busy engine completes on every fair run": while no reset is asserted, a Busy engine completes its
job within one step more than the turns still to come, with the job's value in RES and DONE = 1. (That the engine completes
when no turn is left is the model's reading of weak fairness: log 3.) -/
def Obligations.BusyEngineCompletes : Prop :=
  ∀ (s : State) (j : Job), s.inReset = false → s.eng = .busy j → Turn.resetAssert ∉ s.turns →
    ∃ (k : Nat) (t : State), k ≤ s.turns.length + 1 ∧ StepsTo k s t ∧ t.eng = .idle ∧
      t.res = computeJob j ∧ t.status.busy = false ∧ t.status.done = true

/-- 30_encoding.md R106 and R105, 95_test_vectors.md P3: both outcomes of a CMD write that races with Complete. Taken before
Complete the word is dropped with OVR, and the running job's result arrives; taken after it, the word is stored in CMD. -/
def Obligations.CommandRacesWithCompletion : Prop :=
  ∀ (s : State) (j : Job) (v : Word32) (rest : List Turn), s.inReset = false → s.eng = .busy j →
    (∃ t, StepsTo 2 { s with turns := .host (.write s.params.base 4 v) :: .engine :: rest } t ∧
      t.res = computeJob j ∧ t.cmd = s.cmd ∧ t.status.ovr = true ∧ t.eng = .idle ∧ t.turns = rest) ∧
    (∃ t, StepsTo 2 { s with turns := .engine :: .host (.write s.params.base 4 v) :: rest } t ∧
      t.res = computeJob j ∧ t.cmd = v ∧ t.status.ovr = s.status.ovr ∧ t.turns = rest)

/-- 20_memory.md R73 and 70_reset_and_hazards.md R277: no step changes a running job. A Busy engine stays Busy with the very same
job, or completes it, or reset ends. (That the job outlasts the assertion of reset and is abandoned at its release is the model's
reading of 70_reset_and_hazards.md R270 and R271: log 6.) -/
def Obligations.LatchedJobIsNeverChanged : Prop :=
  ∀ (s t : State) (j : Job), s.eng = .busy j → step s = .next t →
    t.eng = .busy j ∨
    (s.inReset = false ∧ t.eng = .idle ∧ t.res = computeJob j ∧ t.status.done = true) ∨
    (s.inReset = true ∧ ∃ rest, s.turns = .resetRelease :: rest)

/-- 10_state.md R22: only Complete writes RES (and reset makes it 0). (That RES keeps its value at the assertion of reset and is
0 from its release on is the model's: log 6.) -/
def Obligations.ResultIsWrittenOnlyByCompletion : Prop :=
  ∀ s t : State, step s = .next t →
    t.res = s.res ∨
    (∃ j, s.eng = .busy j ∧ t.eng = .idle ∧ t.res = computeJob j) ∨
    (s.inReset = true ∧ t.res = 0 ∧ ∃ rest, s.turns = .resetRelease :: rest)

/-- 60_exceptions.md R230: ERR rises only at a CMD write while Idle, of an illegal word (code 1) or of a MULMOD or POWMOD command
with m = 0 (code 2). OVR rises only at a CMD write while Busy. -/
def Obligations.ErrorsComeOnlyFromCommandWrites : Prop :=
  ∀ s t : State, step s = .next t →
    (s.status.err = false → t.status.err = true →
      ∃ v rest, s.inReset = false ∧ s.eng = .idle ∧ s.turns = .host (.write s.params.base 4 v) :: rest ∧
        t.cmd = v ∧
        (((∀ i : Instr, v ≠ encode i) ∧ t.status.errcode = 1) ∨
          (∃ i : Instr, v = encode i ∧ (i.fields.op = .mulmod ∨ i.fields.op = .powmod) ∧
            s.regM.toNat % 2 ^ i.fields.width.bits = 0 ∧ t.status.errcode = 2))) ∧
    (s.status.ovr = false → t.status.ovr = true →
      ∃ v rest j, s.inReset = false ∧ s.eng = .busy j ∧ s.turns = .host (.write s.params.base 4 v) :: rest)

/-- 20_memory.md R70, its third consequence, and R72: from a Busy engine, after any number of steps that take no CMD write and
no reset, if BUSY reads 0 then RES_LO and RES_HI read the halves of the job's result. -/
def Obligations.HandshakeReturnsTheResult : Prop :=
  ∀ (k : Nat) (s t : State) (j : Job), s.Inv → s.inReset = false → s.eng = .busy j → StepsTo k s t →
    Turn.resetAssert ∉ s.turns.take k → (∀ v, Turn.host (.write s.params.base 4 v) ∉ s.turns.take k) →
    t.status.busy = false →
    readResponse t 0x30 4 = .data ((computeJob j).extractLsb' 0 32) ∧
    readResponse t 0x34 4 = .data ((computeJob j).extractLsb' 32 32)

/-- 60_exceptions.md R235 and R239: nothing stops the machine; every state has a next state. (That an idle core with no turn left
stays as it is, is the model's: log 3.) -/
def Obligations.EveryStateHasANextState : Prop :=
  ∀ s : State, ∃ t, step s = .next t

/-! ### Invariants -/

/-- 10_state.md R37: the reset state of every build meets the invariant. -/
def Obligations.ResetMeetsTheInvariant : Prop :=
  ∀ p : Params, (State.resetOf p).Inv

/-- 10_state.md R34 ("STATUS.BUSY = 1 exactly when ENG = Busy"), R28 (ERRCODE ≠ 0 if and only if ERR = 1), R27 (CMD holds the
command being executed), 60_exceptions.md R230 (ERRCODE 3 to 15 never produced), 95_test_vectors.md STS-3: every step keeps the
invariant, from every state that meets it (over reset as log 6 has it). -/
def Obligations.EveryStepKeepsTheInvariant : Prop :=
  ∀ s t : State, s.Inv → step s = .next t → t.Inv

/-- 10_state.md R30: CAPS reads {FAST64, FAST32} over zeros, a write to it is ignored (the recorded response apart: log 8), and no
step changes the build. -/
def Obligations.CapsIsConstant : Prop :=
  (∀ s : State, readResponse s 0x0C 4 =
    .data (0#30 ++ BitVec.ofBool s.params.fast64 ++ BitVec.ofBool s.params.fast32)) ∧
  (∀ (s : State) (v : Word32), writeAccess 0x0C 4 v s = .next (respond .written s)) ∧
  (∀ s t : State, step s = .next t → t.params = s.params)

/-! ### The register window -/

/-- 20_memory.md R63: an access in the window that is not 32 bits wide, or not at a multiple of 4, gets a bus error and
changes no state (the recorded response is the model's: log 8). -/
def Obligations.WrongSizeOrAlignmentIsABusError : Prop :=
  ∀ (s : State) (off size : Nat) (v : Word32), off < 0x100 → (size ≠ 4 ∨ off % 4 ≠ 0) →
    hostAccess (.read (s.params.base + off) size) s = .next { s with response := .busError } ∧
    hostAccess (.write (s.params.base + off) size v) s = .next { s with response := .busError }

/-- 20_memory.md R60: an address outside [BASE, BASE + 0x100) is not decoded. That the core then does nothing, and that this
is recorded as silence, is the model's reading (log 9). -/
def Obligations.OutsideTheWindowNothingHappens : Prop :=
  ∀ (s : State) (x : Transaction) (addr : Nat), (addr < s.params.base ∨ s.params.base + 0x100 ≤ addr) →
    ((∃ size, x = .read addr size) ∨ (∃ size v, x = .write addr size v)) →
    hostAccess x s = .next { s with response := .silent }

/-- 20_memory.md R67: what a read transaction returns at every offset. -/
def Obligations.ReadReturnsTheRegister : Prop :=
  ∀ (s : State) (off size : Nat),
    readResponse s off size =
      if size ≠ 4 ∨ off % 4 ≠ 0 then .busError
      else if off = 0x00 then .data s.cmd
      else if off = 0x04 then .data (0#24 ++ s.status.errcode ++ BitVec.ofBool s.status.ovr ++
        BitVec.ofBool s.status.err ++ BitVec.ofBool s.status.done ++ BitVec.ofBool s.status.busy)
      else if off = 0x08 then .data (0#29 ++ BitVec.ofBool s.irqen.ovrIE ++ BitVec.ofBool s.irqen.errIE ++
        BitVec.ofBool s.irqen.doneIE)
      else if off = 0x0C then .data (0#30 ++ BitVec.ofBool s.params.fast64 ++ BitVec.ofBool s.params.fast32)
      else if off = 0x10 then .data (s.regA.extractLsb' 0 32)
      else if off = 0x14 then .data (s.regA.extractLsb' 32 32)
      else if off = 0x18 then .data (s.regB.extractLsb' 0 32)
      else if off = 0x1C then .data (s.regB.extractLsb' 32 32)
      else if off = 0x20 then .data (s.regM.extractLsb' 0 32)
      else if off = 0x24 then .data (s.regM.extractLsb' 32 32)
      else if off = 0x28 then .data (s.regN.extractLsb' 0 32)
      else if off = 0x2C then .data (s.regN.extractLsb' 32 32)
      else if off = 0x30 then .data (s.res.extractLsb' 0 32)
      else if off = 0x34 then .data (s.res.extractLsb' 32 32)
      else .data 0

/-- 20_memory.md R60, R65 and R67: a host read in the window is answered with what R67 returns at its offset, and a read at any
address changes nothing but the answer the host gets (recorded in the model's field response: log 8). -/
def Obligations.ReadsHaveNoSideEffect : Prop :=
  (∀ (s : State) (off size : Nat), off < 0x100 →
    hostAccess (.read (s.params.base + off) size) s = .next { s with response := readResponse s off size }) ∧
  (∀ (s : State) (addr size : Nat), ∃ a, hostAccess (.read addr size) s = .next { s with response := a })

/-- 10_state.md R21: each operand half reads back the last word written, or 0 after reset, whether or not the engine is Busy; no
other offset of the window changes what it reads; and the write starts nothing and touches no running job. -/
def Obligations.OperandHalvesReadBack : Prop :=
  (∀ (s : State) (off : Nat) (v : Word32),
    off ∈ [0x10, 0x14, 0x18, 0x1C, 0x20, 0x24, 0x28, 0x2C] →
    ∃ t, writeAccess off 4 v s = .next t ∧ readResponse t off 4 = .data v ∧
      (∀ off', off' ≠ off → readResponse t off' 4 = readResponse s off' 4) ∧ t.eng = s.eng) ∧
  (∀ (p : Params) (off : Nat), off ∈ [0x10, 0x14, 0x18, 0x1C, 0x20, 0x24, 0x28, 0x2C] →
    readResponse (State.resetOf p) off 4 = .data 0)

/-- 20_memory.md R66 and R68: a write to CAPS, RES_LO, RES_HI or a reserved offset 0x38 to 0xFC is ignored without error (the
recorded response apart: log 8), and a reserved offset reads 0. -/
def Obligations.ReadOnlyAndReservedOffsetsIgnoreWrites : Prop :=
  ∀ (s : State) (off : Nat) (v : Word32), off % 4 = 0 →
    (off = 0x0C ∨ off = 0x30 ∨ off = 0x34 ∨ (0x38 ≤ off ∧ off ≤ 0xFC)) →
    writeAccess off 4 v s = .next { s with response := .written } ∧
    (0x38 ≤ off → readResponse s off 4 = .data 0)

/-- 10_state.md R28: a STATUS write of v clears DONE, ERR (with ERRCODE) and OVR where v has a 1 in bits 1, 2 and 3; every other
flag, and everything else, is unchanged (the recorded response apart: log 8). -/
def Obligations.StatusWriteClearsTheWrittenOnes : Prop :=
  ∀ (s : State) (v : Word32),
    writeAccess 0x04 4 v s = .next { s with
      response := .written
      status := {
        busy := s.status.busy
        done := if v.getLsbD 1 then false else s.status.done
        err := if v.getLsbD 2 then false else s.status.err
        errcode := if v.getLsbD 2 then 0 else s.status.errcode
        ovr := if v.getLsbD 3 then false else s.status.ovr } }

/-- 10_state.md R29: an IRQEN write stores v[2:0], ignores v[31:3] and changes nothing else (the recorded response apart: log 8);
IRQEN then reads v[2:0] over zeros. -/
def Obligations.IrqenStoresThreeBits : Prop :=
  ∀ (s : State) (v : Word32), ∃ t, writeAccess 0x08 4 v s = .next t ∧
    t = { s with
      response := .written
      irqen := { doneIE := v.getLsbD 0, errIE := v.getLsbD 1, ovrIE := v.getLsbD 2 } } ∧
    readResponse t 0x08 4 = .data (0#29 ++ v.extractLsb' 0 3)

/-- 60_exceptions.md R236: IRQ is the OR of DONE, ERR and OVR, each with its enable, in every state; a write of 0xE to STATUS takes
it away, and so does a write of 0 to IRQEN, which leaves STATUS as it is. -/
def Obligations.IrqIsTheOrOfEnabledCauses : Prop :=
  ∀ s : State,
    (s.irq = true ↔ (s.status.done = true ∧ s.irqen.doneIE = true) ∨
      (s.status.err = true ∧ s.irqen.errIE = true) ∨ (s.status.ovr = true ∧ s.irqen.ovrIE = true)) ∧
    (∃ t, writeAccess 0x04 4 0x0000000E s = .next t ∧ t.irq = false) ∧
    (∃ t, writeAccess 0x08 4 0 s = .next t ∧ t.irq = false ∧ t.status = s.status)

/-- 20_memory.md R62: the byte at off + j carries bits [8j+7:8j] of the register at off, so A read as eight bytes is
little-endian. -/
def Obligations.WindowBytesAreLittleEndian : Prop :=
  (∀ (s : State) (off j : Nat), off % 4 = 0 → j < 4 →
    windowByte s (off + j) = (windowWord s off).extractLsb' (8 * j) 8) ∧
  (∀ s : State, s.regA = windowByte s 0x17 ++ windowByte s 0x16 ++ windowByte s 0x15 ++ windowByte s 0x14 ++
    windowByte s 0x13 ++ windowByte s 0x12 ++ windowByte s 0x11 ++ windowByte s 0x10)

/-! ### Reset -/

/-- 10_state.md R37 and 70_reset_and_hazards.md R270, R271: when reset ends, whatever the engine was doing, every word of the window
reads 0 but CAPS, which reads its build value; ENG is Idle, IRQ is 0, and the core takes the turns that follow. (That reset is a level that
two turns assert and release is the model's: log 6.) -/
def Obligations.ResetReleaseLeavesResetValues : Prop :=
  ∀ (s : State) (rest : List Turn), s.inReset = true → s.turns = .resetRelease :: rest →
    ∃ t, step s = .next t ∧
      (∀ off, off % 4 = 0 → off ≠ 0x0C → readResponse t off 4 = .data 0) ∧
      readResponse t 0x0C 4 =
        .data (0#30 ++ BitVec.ofBool s.params.fast64 ++ BitVec.ofBool s.params.fast32) ∧
      t.eng = .idle ∧ t.irq = false ∧ t.inReset = false ∧ t.turns = rest ∧ t.params = s.params

/-- 70_reset_and_hazards.md R270, "While reset is asserted, the core takes no transactions": until the release, a step changes no
register, flag or job, whatever the turn (what it records besides is the model's: logs 5, 6, 8). -/
def Obligations.NothingHappensWhileResetIsAsserted : Prop :=
  (∀ (s : State) (rest : List Turn), s.inReset = false → s.turns = .resetAssert :: rest →
    ∃ t, step s = .next t ∧ t.inReset = true) ∧
  (∀ s t : State, s.inReset = true → (∀ rest, s.turns ≠ .resetRelease :: rest) → step s = .next t →
    t = { s with turns := s.turns.tail, response := t.response, work := t.work, freeCount := t.freeCount })

/-! ### The host-script syntax -/

/-- 30_encoding.md R102, `li64`: from a state where reset is not asserted, the two writes a line `li64 X, v` stands for leave v in
X, change what no other offset reads, and start or stop no command. -/
def Obligations.LoadImmediateLoadsBothHalves : Prop :=
  ∀ (s : State) (x : Reg64) (v : Word64) (rest : List Turn), x ≠ .res → s.inReset = false →
    s.turns = expandLine s.params (.li64 x v) ++ rest →
    ∃ t, StepsTo 2 s t ∧ t.turns = rest ∧ t.eng = s.eng ∧
      readResponse t (regOffset (lowReg x)) 4 = .data (v.extractLsb' 0 32) ∧
      readResponse t (regOffset (highReg x)) 4 = .data (v.extractLsb' 32 32) ∧
      ∀ off, off ≠ regOffset (lowReg x) → off ≠ regOffset (highReg x) →
        readResponse t off 4 = readResponse s off 4

/-- 30_encoding.md R102, `clrstat`: it clears DONE, ERR, ERRCODE and OVR and leaves BUSY. -/
def Obligations.ClearStatusClearsEveryReport : Prop :=
  ∀ (s : State) (rest : List Turn), s.inReset = false → s.turns = expandLine s.params .clrstat ++ rest →
    ∃ t, step s = .next t ∧ t.turns = rest ∧
      t.status = { busy := s.status.busy, done := false, err := false, errcode := 0, ovr := false } ∧
      t.eng = s.eng ∧ t.cmd = s.cmd ∧ t.res = s.res

/-- 30_encoding.md R97 and R100: a disassembler prints a legal word as its mnemonic, of which these are the fourteen, and any other
as `.illegal 0x` and its 8 hexadecimal digits, the highest first: digit k is that of bits [4k+3:4k]. (That the digits above 9 are
capitals is read from how the spec writes its values: log 18.) -/
def Obligations.DisassemblerPrintsMnemonics : Prop :=
  (∀ i : Instr, disassemble (encode i) = i.mnemonic) ∧
  Instr.mnemonic .mulmodW32Wide = "mulmod.w32.wide" ∧ Instr.mnemonic .mulmodW32Serial = "mulmod.w32.serial" ∧
  Instr.mnemonic .mulmodW64Wide = "mulmod.w64.wide" ∧ Instr.mnemonic .mulmodW64Serial = "mulmod.w64.serial" ∧
  Instr.mnemonic .powW32 = "pow.w32" ∧ Instr.mnemonic .powW64 = "pow.w64" ∧
  Instr.mnemonic .powmodW32Wide = "powmod.w32.wide" ∧ Instr.mnemonic .powmodW32Serial = "powmod.w32.serial" ∧
  Instr.mnemonic .powmodW64Wide = "powmod.w64.wide" ∧ Instr.mnemonic .powmodW64Serial = "powmod.w64.serial" ∧
  Instr.mnemonic .geomW32Closed = "geom.w32.closed" ∧ Instr.mnemonic .geomW32Pair = "geom.w32.pair" ∧
  Instr.mnemonic .geomW64Closed = "geom.w64.closed" ∧ Instr.mnemonic .geomW64Pair = "geom.w64.pair" ∧
  (∀ v : Word32, (∀ i : Instr, v ≠ encode i) → disassemble v = ".illegal 0x" ++ hexWord v) ∧
  (∀ v : Word32, (hexWord v).toList.length = 8 ∧
    ∀ k, k < 8 → (hexWord v).toList[7 - k]? =
      ['0', '1', '2', '3', '4', '5', '6', '7', '8', '9', 'A', 'B', 'C', 'D', 'E', 'F'][(v.extractLsb' (4 * k) 4).toNat]?)

/-! ### Transactions -/

/-- 20_memory.md R60, R67, R68 and R70: while reset is not asserted, a step whose next turn is a host transaction is that one access,
with the turn taken off and the hidden working registers left free (logs 2 and 5); and an access in the window, of any size, is the
read or the write at its offset. (What a step leaves free, and the recorded response, log 8, are no other field.) -/
def Obligations.TransactionsReachTheWindow : Prop :=
  (∀ (s u : State) (x : Transaction) (rest : List Turn), s.inReset = false → s.turns = .host x :: rest →
    hostAccess x { s with turns := rest } = .next u → step s = .next (refreshWork u)) ∧
  (∀ (s : State) (off size : Nat), off < 0x100 →
    hostAccess (.read (s.params.base + off) size) s = .next (respond (readResponse s off size) s)) ∧
  (∀ (s : State) (off size : Nat) (v : Word32), off < 0x100 →
    hostAccess (.write (s.params.base + off) size v) s = writeAccess off size v s) ∧
  (∀ s : State, refreshWork s = { s with work := (refreshWork s).work, freeCount := (refreshWork s).freeCount }) ∧
  (∀ (s : State) (a : Response), respond a s = { s with response := a })
end

