-- ==== Sys2Proof/Laws/State.lean ====
section
/-!
SUPPORT. What each update of State leaves in each field, and what each flag function leaves in each flag: the small
lemmas that keep later proofs from unfolding a record update.
-/

namespace Sys2Proof.Machine

@[simp] theorem errorReport_params (c : ErrorCause) (s : State) : (errorReport c s).params = s.params := rfl
@[simp] theorem errorReport_regA (c : ErrorCause) (s : State) : (errorReport c s).regA = s.regA := rfl
@[simp] theorem errorReport_regB (c : ErrorCause) (s : State) : (errorReport c s).regB = s.regB := rfl
@[simp] theorem errorReport_regM (c : ErrorCause) (s : State) : (errorReport c s).regM = s.regM := rfl
@[simp] theorem errorReport_regN (c : ErrorCause) (s : State) : (errorReport c s).regN = s.regN := rfl
@[simp] theorem errorReport_res (c : ErrorCause) (s : State) : (errorReport c s).res = s.res := rfl
@[simp] theorem errorReport_cmd (c : ErrorCause) (s : State) : (errorReport c s).cmd = s.cmd := rfl
@[simp] theorem errorReport_status (c : ErrorCause) (s : State) : (errorReport c s).status = s.status.reported c := rfl
@[simp] theorem errorReport_irqen (c : ErrorCause) (s : State) : (errorReport c s).irqen = s.irqen := rfl
@[simp] theorem errorReport_eng (c : ErrorCause) (s : State) : (errorReport c s).eng = s.eng := rfl
@[simp] theorem errorReport_work (c : ErrorCause) (s : State) : (errorReport c s).work = s.work := rfl
@[simp] theorem errorReport_inReset (c : ErrorCause) (s : State) : (errorReport c s).inReset = s.inReset := rfl
@[simp] theorem errorReport_turns (c : ErrorCause) (s : State) : (errorReport c s).turns = s.turns := rfl
@[simp] theorem errorReport_response (c : ErrorCause) (s : State) : (errorReport c s).response = s.response := rfl
@[simp] theorem errorReport_freeCount (c : ErrorCause) (s : State) : (errorReport c s).freeCount = s.freeCount := rfl

@[simp] theorem statusWrite_params (v : Word32) (s : State) : (statusWrite v s).params = s.params := rfl
@[simp] theorem statusWrite_regA (v : Word32) (s : State) : (statusWrite v s).regA = s.regA := rfl
@[simp] theorem statusWrite_regB (v : Word32) (s : State) : (statusWrite v s).regB = s.regB := rfl
@[simp] theorem statusWrite_regM (v : Word32) (s : State) : (statusWrite v s).regM = s.regM := rfl
@[simp] theorem statusWrite_regN (v : Word32) (s : State) : (statusWrite v s).regN = s.regN := rfl
@[simp] theorem statusWrite_res (v : Word32) (s : State) : (statusWrite v s).res = s.res := rfl
@[simp] theorem statusWrite_cmd (v : Word32) (s : State) : (statusWrite v s).cmd = s.cmd := rfl
@[simp] theorem statusWrite_status (v : Word32) (s : State) : (statusWrite v s).status = s.status.writeOneClear v := rfl
@[simp] theorem statusWrite_irqen (v : Word32) (s : State) : (statusWrite v s).irqen = s.irqen := rfl
@[simp] theorem statusWrite_eng (v : Word32) (s : State) : (statusWrite v s).eng = s.eng := rfl
@[simp] theorem statusWrite_work (v : Word32) (s : State) : (statusWrite v s).work = s.work := rfl
@[simp] theorem statusWrite_inReset (v : Word32) (s : State) : (statusWrite v s).inReset = s.inReset := rfl
@[simp] theorem statusWrite_turns (v : Word32) (s : State) : (statusWrite v s).turns = s.turns := rfl
@[simp] theorem statusWrite_response (v : Word32) (s : State) : (statusWrite v s).response = s.response := rfl
@[simp] theorem statusWrite_freeCount (v : Word32) (s : State) : (statusWrite v s).freeCount = s.freeCount := rfl

@[simp] theorem dropCommand_params (s : State) : (dropCommand s).params = s.params := rfl
@[simp] theorem dropCommand_regA (s : State) : (dropCommand s).regA = s.regA := rfl
@[simp] theorem dropCommand_regB (s : State) : (dropCommand s).regB = s.regB := rfl
@[simp] theorem dropCommand_regM (s : State) : (dropCommand s).regM = s.regM := rfl
@[simp] theorem dropCommand_regN (s : State) : (dropCommand s).regN = s.regN := rfl
@[simp] theorem dropCommand_res (s : State) : (dropCommand s).res = s.res := rfl
@[simp] theorem dropCommand_cmd (s : State) : (dropCommand s).cmd = s.cmd := rfl
@[simp] theorem dropCommand_status (s : State) : (dropCommand s).status = s.status.overrun := rfl
@[simp] theorem dropCommand_irqen (s : State) : (dropCommand s).irqen = s.irqen := rfl
@[simp] theorem dropCommand_eng (s : State) : (dropCommand s).eng = s.eng := rfl
@[simp] theorem dropCommand_work (s : State) : (dropCommand s).work = s.work := rfl
@[simp] theorem dropCommand_inReset (s : State) : (dropCommand s).inReset = s.inReset := rfl
@[simp] theorem dropCommand_turns (s : State) : (dropCommand s).turns = s.turns := rfl
@[simp] theorem dropCommand_response (s : State) : (dropCommand s).response = s.response := rfl
@[simp] theorem dropCommand_freeCount (s : State) : (dropCommand s).freeCount = s.freeCount := rfl

@[simp] theorem acceptWord_params (v : Word32) (s : State) : (acceptWord v s).params = s.params := rfl
@[simp] theorem acceptWord_regA (v : Word32) (s : State) : (acceptWord v s).regA = s.regA := rfl
@[simp] theorem acceptWord_regB (v : Word32) (s : State) : (acceptWord v s).regB = s.regB := rfl
@[simp] theorem acceptWord_regM (v : Word32) (s : State) : (acceptWord v s).regM = s.regM := rfl
@[simp] theorem acceptWord_regN (v : Word32) (s : State) : (acceptWord v s).regN = s.regN := rfl
@[simp] theorem acceptWord_res (v : Word32) (s : State) : (acceptWord v s).res = s.res := rfl
@[simp] theorem acceptWord_cmd (v : Word32) (s : State) : (acceptWord v s).cmd = v := rfl
@[simp] theorem acceptWord_status (v : Word32) (s : State) : (acceptWord v s).status = s.status.cleared := rfl
@[simp] theorem acceptWord_irqen (v : Word32) (s : State) : (acceptWord v s).irqen = s.irqen := rfl
@[simp] theorem acceptWord_eng (v : Word32) (s : State) : (acceptWord v s).eng = s.eng := rfl
@[simp] theorem acceptWord_work (v : Word32) (s : State) : (acceptWord v s).work = s.work := rfl
@[simp] theorem acceptWord_inReset (v : Word32) (s : State) : (acceptWord v s).inReset = s.inReset := rfl
@[simp] theorem acceptWord_turns (v : Word32) (s : State) : (acceptWord v s).turns = s.turns := rfl
@[simp] theorem acceptWord_response (v : Word32) (s : State) : (acceptWord v s).response = s.response := rfl
@[simp] theorem acceptWord_freeCount (v : Word32) (s : State) : (acceptWord v s).freeCount = s.freeCount := rfl

@[simp] theorem startJob_params (j : Job) (s : State) : (startJob j s).params = s.params := rfl
@[simp] theorem startJob_regA (j : Job) (s : State) : (startJob j s).regA = s.regA := rfl
@[simp] theorem startJob_regB (j : Job) (s : State) : (startJob j s).regB = s.regB := rfl
@[simp] theorem startJob_regM (j : Job) (s : State) : (startJob j s).regM = s.regM := rfl
@[simp] theorem startJob_regN (j : Job) (s : State) : (startJob j s).regN = s.regN := rfl
@[simp] theorem startJob_res (j : Job) (s : State) : (startJob j s).res = s.res := rfl
@[simp] theorem startJob_cmd (j : Job) (s : State) : (startJob j s).cmd = s.cmd := rfl
@[simp] theorem startJob_status (j : Job) (s : State) : (startJob j s).status = s.status.issued := rfl
@[simp] theorem startJob_irqen (j : Job) (s : State) : (startJob j s).irqen = s.irqen := rfl
@[simp] theorem startJob_eng (j : Job) (s : State) : (startJob j s).eng = .busy j := rfl
@[simp] theorem startJob_work (j : Job) (s : State) : (startJob j s).work = s.work := rfl
@[simp] theorem startJob_inReset (j : Job) (s : State) : (startJob j s).inReset = s.inReset := rfl
@[simp] theorem startJob_turns (j : Job) (s : State) : (startJob j s).turns = s.turns := rfl
@[simp] theorem startJob_response (j : Job) (s : State) : (startJob j s).response = s.response := rfl
@[simp] theorem startJob_freeCount (j : Job) (s : State) : (startJob j s).freeCount = s.freeCount := rfl

@[simp] theorem completeJob_params (j : Job) (s : State) : (completeJob j s).params = s.params := rfl
@[simp] theorem completeJob_regA (j : Job) (s : State) : (completeJob j s).regA = s.regA := rfl
@[simp] theorem completeJob_regB (j : Job) (s : State) : (completeJob j s).regB = s.regB := rfl
@[simp] theorem completeJob_regM (j : Job) (s : State) : (completeJob j s).regM = s.regM := rfl
@[simp] theorem completeJob_regN (j : Job) (s : State) : (completeJob j s).regN = s.regN := rfl
@[simp] theorem completeJob_res (j : Job) (s : State) : (completeJob j s).res = computeJob j := rfl
@[simp] theorem completeJob_cmd (j : Job) (s : State) : (completeJob j s).cmd = s.cmd := rfl
@[simp] theorem completeJob_status (j : Job) (s : State) : (completeJob j s).status = s.status.completed := rfl
@[simp] theorem completeJob_irqen (j : Job) (s : State) : (completeJob j s).irqen = s.irqen := rfl
@[simp] theorem completeJob_eng (j : Job) (s : State) : (completeJob j s).eng = .idle := rfl
@[simp] theorem completeJob_work (j : Job) (s : State) : (completeJob j s).work = s.work := rfl
@[simp] theorem completeJob_inReset (j : Job) (s : State) : (completeJob j s).inReset = s.inReset := rfl
@[simp] theorem completeJob_turns (j : Job) (s : State) : (completeJob j s).turns = s.turns := rfl
@[simp] theorem completeJob_response (j : Job) (s : State) : (completeJob j s).response = s.response := rfl
@[simp] theorem completeJob_freeCount (j : Job) (s : State) : (completeJob j s).freeCount = s.freeCount := rfl

@[simp] theorem refreshWork_params (s : State) : (refreshWork s).params = s.params := rfl
@[simp] theorem refreshWork_regA (s : State) : (refreshWork s).regA = s.regA := rfl
@[simp] theorem refreshWork_regB (s : State) : (refreshWork s).regB = s.regB := rfl
@[simp] theorem refreshWork_regM (s : State) : (refreshWork s).regM = s.regM := rfl
@[simp] theorem refreshWork_regN (s : State) : (refreshWork s).regN = s.regN := rfl
@[simp] theorem refreshWork_res (s : State) : (refreshWork s).res = s.res := rfl
@[simp] theorem refreshWork_cmd (s : State) : (refreshWork s).cmd = s.cmd := rfl
@[simp] theorem refreshWork_status (s : State) : (refreshWork s).status = s.status := rfl
@[simp] theorem refreshWork_irqen (s : State) : (refreshWork s).irqen = s.irqen := rfl
@[simp] theorem refreshWork_eng (s : State) : (refreshWork s).eng = s.eng := rfl
@[simp] theorem refreshWork_work (s : State) : (refreshWork s).work = Config.freeWork s.freeCount := rfl
@[simp] theorem refreshWork_inReset (s : State) : (refreshWork s).inReset = s.inReset := rfl
@[simp] theorem refreshWork_turns (s : State) : (refreshWork s).turns = s.turns := rfl
@[simp] theorem refreshWork_response (s : State) : (refreshWork s).response = s.response := rfl
@[simp] theorem refreshWork_freeCount (s : State) : (refreshWork s).freeCount = s.freeCount + 1 := rfl

@[simp] theorem respond_params (a : Response) (s : State) : (respond a s).params = s.params := rfl
@[simp] theorem respond_regA (a : Response) (s : State) : (respond a s).regA = s.regA := rfl
@[simp] theorem respond_regB (a : Response) (s : State) : (respond a s).regB = s.regB := rfl
@[simp] theorem respond_regM (a : Response) (s : State) : (respond a s).regM = s.regM := rfl
@[simp] theorem respond_regN (a : Response) (s : State) : (respond a s).regN = s.regN := rfl
@[simp] theorem respond_res (a : Response) (s : State) : (respond a s).res = s.res := rfl
@[simp] theorem respond_cmd (a : Response) (s : State) : (respond a s).cmd = s.cmd := rfl
@[simp] theorem respond_status (a : Response) (s : State) : (respond a s).status = s.status := rfl
@[simp] theorem respond_irqen (a : Response) (s : State) : (respond a s).irqen = s.irqen := rfl
@[simp] theorem respond_eng (a : Response) (s : State) : (respond a s).eng = s.eng := rfl
@[simp] theorem respond_work (a : Response) (s : State) : (respond a s).work = s.work := rfl
@[simp] theorem respond_inReset (a : Response) (s : State) : (respond a s).inReset = s.inReset := rfl
@[simp] theorem respond_turns (a : Response) (s : State) : (respond a s).turns = s.turns := rfl
@[simp] theorem respond_response (a : Response) (s : State) : (respond a s).response = a := rfl
@[simp] theorem respond_freeCount (a : Response) (s : State) : (respond a s).freeCount = s.freeCount := rfl

@[simp] theorem afterReset_params (s : State) : (afterReset s).params = s.params := rfl
@[simp] theorem afterReset_regA (s : State) : (afterReset s).regA = (State.resetOf s.params).regA := rfl
@[simp] theorem afterReset_regB (s : State) : (afterReset s).regB = (State.resetOf s.params).regB := rfl
@[simp] theorem afterReset_regM (s : State) : (afterReset s).regM = (State.resetOf s.params).regM := rfl
@[simp] theorem afterReset_regN (s : State) : (afterReset s).regN = (State.resetOf s.params).regN := rfl
@[simp] theorem afterReset_res (s : State) : (afterReset s).res = (State.resetOf s.params).res := rfl
@[simp] theorem afterReset_cmd (s : State) : (afterReset s).cmd = (State.resetOf s.params).cmd := rfl
@[simp] theorem afterReset_status (s : State) : (afterReset s).status = (State.resetOf s.params).status := rfl
@[simp] theorem afterReset_irqen (s : State) : (afterReset s).irqen = (State.resetOf s.params).irqen := rfl
@[simp] theorem afterReset_eng (s : State) : (afterReset s).eng = (State.resetOf s.params).eng := rfl
@[simp] theorem afterReset_work (s : State) : (afterReset s).work = (State.resetOf s.params).work := rfl
@[simp] theorem afterReset_inReset (s : State) : (afterReset s).inReset = (State.resetOf s.params).inReset := rfl
@[simp] theorem afterReset_turns (s : State) : (afterReset s).turns = s.turns := rfl
@[simp] theorem afterReset_response (s : State) : (afterReset s).response = (State.resetOf s.params).response := rfl
@[simp] theorem afterReset_freeCount (s : State) : (afterReset s).freeCount = s.freeCount := rfl

@[simp] theorem setTurns_params (ts : List Turn) (s : State) : (setTurns ts s).params = s.params := rfl
@[simp] theorem setTurns_regA (ts : List Turn) (s : State) : (setTurns ts s).regA = s.regA := rfl
@[simp] theorem setTurns_regB (ts : List Turn) (s : State) : (setTurns ts s).regB = s.regB := rfl
@[simp] theorem setTurns_regM (ts : List Turn) (s : State) : (setTurns ts s).regM = s.regM := rfl
@[simp] theorem setTurns_regN (ts : List Turn) (s : State) : (setTurns ts s).regN = s.regN := rfl
@[simp] theorem setTurns_res (ts : List Turn) (s : State) : (setTurns ts s).res = s.res := rfl
@[simp] theorem setTurns_cmd (ts : List Turn) (s : State) : (setTurns ts s).cmd = s.cmd := rfl
@[simp] theorem setTurns_status (ts : List Turn) (s : State) : (setTurns ts s).status = s.status := rfl
@[simp] theorem setTurns_irqen (ts : List Turn) (s : State) : (setTurns ts s).irqen = s.irqen := rfl
@[simp] theorem setTurns_eng (ts : List Turn) (s : State) : (setTurns ts s).eng = s.eng := rfl
@[simp] theorem setTurns_work (ts : List Turn) (s : State) : (setTurns ts s).work = s.work := rfl
@[simp] theorem setTurns_inReset (ts : List Turn) (s : State) : (setTurns ts s).inReset = s.inReset := rfl
@[simp] theorem setTurns_turns (ts : List Turn) (s : State) : (setTurns ts s).turns = ts := rfl
@[simp] theorem setTurns_response (ts : List Turn) (s : State) : (setTurns ts s).response = s.response := rfl
@[simp] theorem setTurns_freeCount (ts : List Turn) (s : State) : (setTurns ts s).freeCount = s.freeCount := rfl

@[simp] theorem assertReset_params (s : State) : (assertReset s).params = s.params := rfl
@[simp] theorem assertReset_regA (s : State) : (assertReset s).regA = s.regA := rfl
@[simp] theorem assertReset_regB (s : State) : (assertReset s).regB = s.regB := rfl
@[simp] theorem assertReset_regM (s : State) : (assertReset s).regM = s.regM := rfl
@[simp] theorem assertReset_regN (s : State) : (assertReset s).regN = s.regN := rfl
@[simp] theorem assertReset_res (s : State) : (assertReset s).res = s.res := rfl
@[simp] theorem assertReset_cmd (s : State) : (assertReset s).cmd = s.cmd := rfl
@[simp] theorem assertReset_status (s : State) : (assertReset s).status = s.status := rfl
@[simp] theorem assertReset_irqen (s : State) : (assertReset s).irqen = s.irqen := rfl
@[simp] theorem assertReset_eng (s : State) : (assertReset s).eng = s.eng := rfl
@[simp] theorem assertReset_work (s : State) : (assertReset s).work = s.work := rfl
@[simp] theorem assertReset_inReset (s : State) : (assertReset s).inReset = true := rfl
@[simp] theorem assertReset_turns (s : State) : (assertReset s).turns = s.turns := rfl
@[simp] theorem assertReset_response (s : State) : (assertReset s).response = s.response := rfl
@[simp] theorem assertReset_freeCount (s : State) : (assertReset s).freeCount = s.freeCount := rfl

@[simp] theorem status_cleared_busy (st : Status) : st.cleared.busy = st.busy := rfl
@[simp] theorem status_cleared_done (st : Status) : st.cleared.done = false := rfl
@[simp] theorem status_cleared_err (st : Status) : st.cleared.err = false := rfl
@[simp] theorem status_cleared_ovr (st : Status) : st.cleared.ovr = st.ovr := rfl
@[simp] theorem status_cleared_errcode (st : Status) : st.cleared.errcode = 0 := rfl

@[simp] theorem status_issued_busy (st : Status) : st.issued.busy = true := rfl
@[simp] theorem status_issued_done (st : Status) : st.issued.done = false := rfl
@[simp] theorem status_issued_err (st : Status) : st.issued.err = false := rfl
@[simp] theorem status_issued_ovr (st : Status) : st.issued.ovr = st.ovr := rfl
@[simp] theorem status_issued_errcode (st : Status) : st.issued.errcode = 0 := rfl

@[simp] theorem status_reported_busy (st : Status) (c : ErrorCause) : (st.reported c).busy = st.busy := rfl
@[simp] theorem status_reported_done (st : Status) (c : ErrorCause) : (st.reported c).done = true := rfl
@[simp] theorem status_reported_err (st : Status) (c : ErrorCause) : (st.reported c).err = true := rfl
@[simp] theorem status_reported_ovr (st : Status) (c : ErrorCause) : (st.reported c).ovr = st.ovr := rfl
@[simp] theorem status_reported_errcode (st : Status) (c : ErrorCause) : (st.reported c).errcode = errorCode c := rfl

@[simp] theorem status_overrun_busy (st : Status) : st.overrun.busy = st.busy := rfl
@[simp] theorem status_overrun_done (st : Status) : st.overrun.done = st.done := rfl
@[simp] theorem status_overrun_err (st : Status) : st.overrun.err = st.err := rfl
@[simp] theorem status_overrun_ovr (st : Status) : st.overrun.ovr = true := rfl
@[simp] theorem status_overrun_errcode (st : Status) : st.overrun.errcode = st.errcode := rfl

@[simp] theorem status_completed_busy (st : Status) : st.completed.busy = false := rfl
@[simp] theorem status_completed_done (st : Status) : st.completed.done = true := rfl
@[simp] theorem status_completed_err (st : Status) : st.completed.err = st.err := rfl
@[simp] theorem status_completed_ovr (st : Status) : st.completed.ovr = st.ovr := rfl
@[simp] theorem status_completed_errcode (st : Status) : st.completed.errcode = st.errcode := rfl

@[simp] theorem status_writeOneClear_busy (st : Status) (v : Word32) : (st.writeOneClear v).busy = st.busy := rfl
@[simp] theorem status_writeOneClear_done (st : Status) (v : Word32) : (st.writeOneClear v).done = (st.done && !v.getLsbD 1) := rfl
@[simp] theorem status_writeOneClear_err (st : Status) (v : Word32) : (st.writeOneClear v).err = (st.err && !v.getLsbD 2) := rfl
@[simp] theorem status_writeOneClear_ovr (st : Status) (v : Word32) : (st.writeOneClear v).ovr = (st.ovr && !v.getLsbD 3) := rfl
@[simp] theorem status_writeOneClear_errcode (st : Status) (v : Word32) : (st.writeOneClear v).errcode = (if v.getLsbD 2 then 0 else st.errcode) := rfl

@[simp] theorem resetOf_params (p : Params) : (State.resetOf p).params = p := rfl
@[simp] theorem resetOf_regA (p : Params) : (State.resetOf p).regA = 0 := rfl
@[simp] theorem resetOf_regB (p : Params) : (State.resetOf p).regB = 0 := rfl
@[simp] theorem resetOf_regM (p : Params) : (State.resetOf p).regM = 0 := rfl
@[simp] theorem resetOf_regN (p : Params) : (State.resetOf p).regN = 0 := rfl
@[simp] theorem resetOf_res (p : Params) : (State.resetOf p).res = 0 := rfl
@[simp] theorem resetOf_cmd (p : Params) : (State.resetOf p).cmd = 0 := rfl
@[simp] theorem resetOf_status (p : Params) : (State.resetOf p).status = { busy := false, done := false, err := false, ovr := false, errcode := 0 } := rfl
@[simp] theorem resetOf_irqen (p : Params) : (State.resetOf p).irqen = { doneIE := false, errIE := false, ovrIE := false } := rfl
@[simp] theorem resetOf_eng (p : Params) : (State.resetOf p).eng = .idle := rfl
@[simp] theorem resetOf_inReset (p : Params) : (State.resetOf p).inReset = false := rfl
@[simp] theorem resetOf_turns (p : Params) : (State.resetOf p).turns = [] := rfl
@[simp] theorem resetOf_response (p : Params) : (State.resetOf p).response = .none := rfl
@[simp] theorem resetOf_freeCount (p : Params) : (State.resetOf p).freeCount = 0 := rfl

@[simp] theorem plainWrite_params (r : Reg) (v : Word32) (s : State) : (plainWrite r v s).params = s.params := by
  cases r <;> rfl
@[simp] theorem plainWrite_res (r : Reg) (v : Word32) (s : State) : (plainWrite r v s).res = s.res := by
  cases r <;> rfl
@[simp] theorem plainWrite_cmd (r : Reg) (v : Word32) (s : State) : (plainWrite r v s).cmd = s.cmd := by
  cases r <;> rfl
@[simp] theorem plainWrite_status (r : Reg) (v : Word32) (s : State) : (plainWrite r v s).status = s.status := by
  cases r <;> rfl
@[simp] theorem plainWrite_eng (r : Reg) (v : Word32) (s : State) : (plainWrite r v s).eng = s.eng := by
  cases r <;> rfl
@[simp] theorem plainWrite_work (r : Reg) (v : Word32) (s : State) : (plainWrite r v s).work = s.work := by
  cases r <;> rfl
@[simp] theorem plainWrite_inReset (r : Reg) (v : Word32) (s : State) : (plainWrite r v s).inReset = s.inReset := by
  cases r <;> rfl
@[simp] theorem plainWrite_turns (r : Reg) (v : Word32) (s : State) : (plainWrite r v s).turns = s.turns := by
  cases r <;> rfl
@[simp] theorem plainWrite_response (r : Reg) (v : Word32) (s : State) : (plainWrite r v s).response = s.response := by
  cases r <;> rfl
@[simp] theorem plainWrite_freeCount (r : Reg) (v : Word32) (s : State) : (plainWrite r v s).freeCount = s.freeCount := by
  cases r <;> rfl

@[simp] theorem mapNext_next (f : State → State) (s : State) : mapNext f (.next s) = .next (f s) := rfl

end Sys2Proof.Machine
end

