-- ==== Sys2Proof/Laws/Operands.lean ====
section
/-!
SUPPORT. The halves of a 64-bit register, the operands of a command as numbers, and the register map: what each operand
operation gives, said once.
-/

namespace Sys2Proof.Machine

theorem getLsbD_setLoHalf (x : Word64) (v : Word32) (i : Nat) :
    (setLoHalf x v).getLsbD i = if i < 32 then v.getLsbD i else x.getLsbD i := by
  show ((hiHalf x ++ v : BitVec (32 + 32))).getLsbD i = _
  rw [BitVec.getLsbD_append]
  split
  · simp_all
  · rename_i h
    have h32 : ¬ i < 32 := by simpa using h
    by_cases h64 : i < 64
    · simp [hiHalf, show i - 32 < 32 by omega, show 32 + (i - 32) = i by omega]
    · simp [BitVec.getLsbD_of_ge _ _ (show 32 ≤ i - 32 by omega), BitVec.getLsbD_of_ge _ _ (show 64 ≤ i by omega)]

theorem getLsbD_setHiHalf (x : Word64) (v : Word32) (i : Nat) :
    (setHiHalf x v).getLsbD i = if i < 32 then x.getLsbD i else v.getLsbD (i - 32) := by
  show ((v ++ loHalf x : BitVec (32 + 32))).getLsbD i = _
  rw [BitVec.getLsbD_append]
  by_cases h : i < 32 <;> simp [h, loHalf]

@[simp] theorem loHalf_setLoHalf (x : Word64) (v : Word32) : loHalf (setLoHalf x v) = v := by
  ext i hi
  simp [loHalf, getLsbD_setLoHalf, hi]

@[simp] theorem hiHalf_setLoHalf (x : Word64) (v : Word32) : hiHalf (setLoHalf x v) = hiHalf x := by
  ext i hi
  simp [hiHalf, getLsbD_setLoHalf]

@[simp] theorem hiHalf_setHiHalf (x : Word64) (v : Word32) : hiHalf (setHiHalf x v) = v := by
  ext i hi
  simp [hiHalf, getLsbD_setHiHalf, hi]

@[simp] theorem loHalf_setHiHalf (x : Word64) (v : Word32) : loHalf (setHiHalf x v) = loHalf x := by
  ext i hi
  simp [loHalf, getLsbD_setHiHalf, hi]

/-- An operand is its register mod 2^W (30_encoding.md R95). -/
theorem truncOperand_toNat (w : Width) (x : Word64) : (truncOperand w x).toNat = x.toNat % 2 ^ w.bits := by
  cases w
  · show ((0#32 ++ x.extractLsb' 0 32 : BitVec (32 + 32))).toNat = _
    rw [BitVec.toNat_append]
    simp [Width.bits]
  · exact (Nat.mod_eq_of_lt x.isLt).symm

theorem truncOperand_lt (w : Width) (x : Word64) : (truncOperand w x).toNat < 2 ^ w.bits := by
  rw [truncOperand_toNat]
  exact Nat.mod_lt _ (by positivity)

/-- The operand m is 0 exactly when M is 0 mod 2^W (60_exceptions.md R232). -/
theorem truncOperand_eq_zero (w : Width) (x : Word64) : truncOperand w x = 0 ↔ x.toNat % 2 ^ w.bits = 0 := by
  rw [← truncOperand_toNat, ← BitVec.toNat_inj]
  rfl

@[simp] theorem loHalf_zero : loHalf 0#64 = 0#32 := by decide

@[simp] theorem hiHalf_zero : hiHalf 0#64 = 0#32 := by decide

/-- The offset of a register is where the register stands. -/
@[simp] theorem regAt_regOffset (r : Reg) : regAt (regOffset r) = some r := by cases r <;> decide

/-- The register at an offset has that offset. -/
theorem regOffset_of_regAt {off : Nat} {r : Reg} (h : regAt off = some r) : regOffset r = off := by
  have := List.find?_some h
  simpa using this

theorem regOffset_lt (r : Reg) : regOffset r < 0x100 := by cases r <;> decide

@[simp] theorem badAccess_regOffset (r : Reg) : badAccess (regOffset r) 4 = false := by cases r <;> decide

/-- A good access is 32 bits wide. -/
theorem size_of_badAccess_false {off size : Nat} (h : badAccess off size = false) : size = 4 := by
  simp only [badAccess, Bool.or_eq_false_iff, bne_eq_false_iff_eq] at h
  exact h.1

/-- An access in the window is at an offset below 0x100, and its address is BASE + offset (20_memory.md R60). -/
theorem windowOffset_eq_some {p : Params} {addr off : Nat} :
    windowOffset p addr = some off ↔ addr = p.base + off ∧ off < 0x100 := by
  unfold windowOffset
  split
  · simp only [Option.some.injEq]; omega
  · simp only [reduceCtorEq, false_iff]; omega

theorem windowOffset_base (p : Params) (off : Nat) (h : off < 0x100) : windowOffset p (p.base + off) = some off :=
  windowOffset_eq_some.2 ⟨rfl, h⟩

@[simp] theorem windowOffset_reg (p : Params) (r : Reg) :
    windowOffset p (p.base + regOffset r) = some (regOffset r) :=
  windowOffset_base p _ (regOffset_lt r)

/-- The word at a register's offset is the register's (20_memory.md R67). -/
@[simp] theorem windowWord_regOffset (s : State) (r : Reg) : windowWord s (regOffset r) = regRead s r := by
  simp [windowWord]

/-- A 32-bit read at a register's offset returns the register (20_memory.md R67). -/
@[simp] theorem readResponse_regOffset (s : State) (r : Reg) :
    readResponse s (regOffset r) 4 = .data (regRead s r) := by
  simp [readResponse]

/-- From 0x38 on nothing stands in the window (20_memory.md R66). -/
theorem regAt_reserved {off : Nat} (h : 0x38 ≤ off) : regAt off = none := by
  rw [regAt, List.find?_eq_none]
  intro r _
  cases r <;> simp [regOffset] <;> omega

/-- Two states whose registers read the same but for one read the same at every offset but that register's. -/
theorem readResponse_congr {s t : State} (r : Reg) (h : ∀ q, q ≠ r → regRead t q = regRead s q) (off : Nat)
    (hne : off ≠ regOffset r) (size : Nat) : readResponse t off size = readResponse s off size := by
  unfold readResponse windowWord
  cases hq : regAt off with
  | none => rfl
  | some q => simp only; rw [h q (by rintro rfl; exact hne (regOffset_of_regAt hq).symm)]

end Sys2Proof.Machine
end

