-- ==== Sys2Proof/Laws/PerInstr.lean ====
section
/-!
SUPPORT. The laws stated of every instruction, one lemma per constructor of Instr.
-/

namespace Sys2Proof.Laws.EncodeDecode

/-- The command is well formed, and decoding its word gives the command back (30_encoding.md R97). -/
def Statement (i : Instr) : Prop := i.wellFormed = true ∧ decodeWord (encode i) = .ok i

theorem mulmodW32Wide : Statement .mulmodW32Wide := by unfold Statement; decide

theorem mulmodW32Serial : Statement .mulmodW32Serial := by unfold Statement; decide

theorem mulmodW64Wide : Statement .mulmodW64Wide := by unfold Statement; decide

theorem mulmodW64Serial : Statement .mulmodW64Serial := by unfold Statement; decide

theorem powW32 : Statement .powW32 := by unfold Statement; decide

theorem powW64 : Statement .powW64 := by unfold Statement; decide

theorem powmodW32Wide : Statement .powmodW32Wide := by unfold Statement; decide

theorem powmodW32Serial : Statement .powmodW32Serial := by unfold Statement; decide

theorem powmodW64Wide : Statement .powmodW64Wide := by unfold Statement; decide

theorem powmodW64Serial : Statement .powmodW64Serial := by unfold Statement; decide

theorem geomW32Closed : Statement .geomW32Closed := by unfold Statement; decide

theorem geomW32Pair : Statement .geomW32Pair := by unfold Statement; decide

theorem geomW64Closed : Statement .geomW64Closed := by unfold Statement; decide

theorem geomW64Pair : Statement .geomW64Pair := by unfold Statement; decide

end Sys2Proof.Laws.EncodeDecode
end

