-- ==== Sys2Proof/Laws/Ops.lean ====
section
/-!
SUPPORT. What each shared operation can do, said once: the lemmas later proofs cite in place of unfolding the operation.
-/

namespace Sys2Proof.Machine

/-- A decoded word gives back the command that was encoded. -/
theorem decodeWord_encode (i : Instr) : decodeWord (encode i) = .ok i := by cases i <;> decide

/-- Every meaning is the issue of the command's fields. -/
theorem exec_eq (i : Instr) (s : State) : exec i s = .next (issueCommand i.fields s) := by cases i <;> rfl

/-- Everything an issue can do: drop, report m = 0, or start the latched job (30_encoding.md R105). -/
theorem issueCommand_cases (f : Fields) (s : State) :
    (∃ j, s.eng = .busy j ∧ issueCommand f s = dropCommand s) ∨
    (s.eng = .idle ∧ needsModulus f.op = true ∧ truncOperand f.width s.regM = 0 ∧
      issueCommand f s = errorReport .modZero (acceptWord (commandWord f) s)) ∨
    (s.eng = .idle ∧ (needsModulus f.op = true → truncOperand f.width s.regM ≠ 0) ∧
      issueCommand f s = startJob (latchJob f s) (acceptWord (commandWord f) s)) := by
  cases h : s.eng with
  | busy j => exact .inl ⟨j, rfl, by simp [issueCommand, h]⟩
  | idle =>
    by_cases c : needsModulus f.op = true ∧ truncOperand f.width s.regM = 0
    · exact .inr (.inl ⟨rfl, c.1, c.2, by simp [issueCommand, h, c.1, c.2]⟩)
    · refine .inr (.inr ⟨rfl, fun hm hz => c ⟨hm, hz⟩, ?_⟩)
      simp only [issueCommand, h]
      rw [if_neg]
      simpa using fun hm hz => c ⟨hm, hz⟩

/-- Everything a CMD write can do (30_encoding.md R105, 60_exceptions.md R238). -/
theorem commandWrite_cases (v : Word32) (s : State) :
    (∃ j, s.eng = .busy j ∧ commandWrite v s = .next (dropCommand s)) ∨
    (s.eng = .idle ∧ (∃ e, decodeWord v = .illegal e) ∧
      commandWrite v s = .next (errorReport .illegalCmd (acceptWord v s))) ∨
    (s.eng = .idle ∧ ∃ i, decodeWord v = .ok i ∧ commandWrite v s = exec i s) := by
  cases h : s.eng with
  | busy j => exact .inl ⟨j, rfl, by simp [commandWrite, h]⟩
  | idle =>
    cases hd : decodeWord v with
    | illegal e => exact .inr (.inl ⟨rfl, ⟨e, rfl⟩, by simp [commandWrite, h, hd, rejectIllegal]⟩)
    | ok i => exact .inr (.inr ⟨rfl, i, rfl, by simp [commandWrite, h, hd]⟩)

/-- Everything the engine's turn can do (30_encoding.md R106). -/
theorem engineTurn_cases (s : State) :
    (s.eng = .idle ∧ engineTurn s = s) ∨ (∃ j, s.eng = .busy j ∧ engineTurn s = completeJob j s) := by
  cases h : s.eng with
  | idle => exact .inl ⟨rfl, by simp [engineTurn, h]⟩
  | busy j => exact .inr ⟨j, rfl, by simp [engineTurn, h]⟩

@[simp] theorem engineTurn_busy (s : State) (j : Job) (h : s.eng = .busy j) : engineTurn s = completeJob j s := by
  simp [engineTurn, h]

@[simp] theorem engineTurn_idle (s : State) (h : s.eng = .idle) : engineTurn s = s := by simp [engineTurn, h]

/-- A 32-bit write always has a next state, and it is one of these (20_memory.md R68). -/
theorem registerWrite_cases (r : Option Reg) (v : Word32) (s : State) :
    (r = none ∧ registerWrite r v s = .next s) ∨
    (r = some .cmd ∧ registerWrite r v s = commandWrite v s) ∨
    (r = some .status ∧ registerWrite r v s = .next (statusWrite v s)) ∨
    (∃ q, r = some q ∧ q ≠ .cmd ∧ q ≠ .status ∧ registerWrite r v s = .next (plainWrite q v s)) := by
  cases r with
  | none => exact .inl ⟨rfl, rfl⟩
  | some q => cases q <;> simp [registerWrite]

/-- A write access is refused for its size or alignment, or it writes what stands there (20_memory.md R63, R68). -/
theorem writeAccess_cases (off size : Nat) (v : Word32) (s : State) :
    (badAccess off size = true ∧ writeAccess off size v s = .next (respond .busError s)) ∨
    (badAccess off size = false ∧
      writeAccess off size v s = mapNext (respond .written) (registerWrite (regAt off) v s)) := by
  cases h : badAccess off size
  · exact .inr ⟨rfl, by simp [writeAccess, h]⟩
  · exact .inl ⟨rfl, by simp [writeAccess, h]⟩

/-- A 32-bit host write of a register reaches that register (20_memory.md R61, R68). -/
theorem hostAccess_write_reg (r : Reg) (v : Word32) (s : State) :
    hostAccess (.write (s.params.base + regOffset r) 4 v) s =
      mapNext (respond .written) (registerWrite (some r) v s) := by
  simp [hostAccess, writeAccess]

/-- A 32-bit host read of a register reads that register (20_memory.md R61, R67). -/
theorem hostAccess_read_reg (r : Reg) (s : State) :
    hostAccess (.read (s.params.base + regOffset r) 4) s = .next (respond (.data (regRead s r)) s) := by
  simp [hostAccess, readResponse, windowWord]

/-- A 32-bit write at a register's offset writes that register (20_memory.md R68). -/
@[simp] theorem writeAccess_regOffset (r : Reg) (v : Word32) (s : State) :
    writeAccess (regOffset r) 4 v s = mapNext (respond .written) (registerWrite (some r) v s) := by
  simp [writeAccess]

/-- A write of a register that only stores (20_memory.md R68). -/
theorem registerWrite_plain {r : Reg} (hc : r ≠ .cmd) (hs : r ≠ .status) (v : Word32) (s : State) :
    registerWrite (some r) v s = .next (plainWrite r v s) := by
  cases r <;> first | contradiction | rfl

/-- A response changes no register. -/
@[simp] theorem regRead_respond (a : Response) (s : State) (q : Reg) : regRead (respond a s) q = regRead s q := by
  cases q <;> rfl

@[simp] theorem regRead_setTurns (ts : List Turn) (s : State) (q : Reg) : regRead (setTurns ts s) q = regRead s q := by
  cases q <;> rfl

@[simp] theorem regRead_refreshWork (s : State) (q : Reg) : regRead (refreshWork s) q = regRead s q := by
  cases q <;> rfl

/-- A write of a register that only stores changes no other register (20_memory.md R65, R68). -/
theorem regRead_plainWrite_ne {q r : Reg} (h : q ≠ r) (v : Word32) (s : State) :
    regRead (plainWrite r v s) q = regRead s q := by
  cases r <;> cases q <;> first | exact absurd rfl h | simp [regRead, plainWrite]

end Sys2Proof.Machine
end

