-- ==== Sys2Proof/Laws/Step.lean ====
section
/-!
SUPPORT. What a step can do, said once: the effects the next turn can have, each with the turn and the conditions it needs,
and that every step has one of them.
-/

namespace Sys2Proof.Machine

/-- The effects the next turn can have (none: no turn is left) on the state s it is taken in. -/
inductive Effect (s : State) : Option Turn → State → Prop where
  /-- A host transaction that does nothing but get a response: a read, a bus error, a write that is ignored, an
  undecoded address, any transaction in reset. -/
  | answer (x : Transaction) (a : Response) : Effect s (some (.host x)) (respond a s)
  /-- A turn that does nothing: an idle engine's, any but the release in reset, a release out of reset. -/
  | nothing (t : Option Turn)
      (h : (s.inReset = true ∧ t ≠ some .resetRelease) ∨
        (s.inReset = false ∧ (t = some .resetRelease ∨ (s.eng = .idle ∧ (t = none ∨ t = some .engine))))) :
      Effect s t s
  /-- A command write while Busy. -/
  | drop (v : Word32) (j : Job) (hr : s.inReset = false) (h : s.eng = .busy j) :
      Effect s (some (writeTurn s.params .cmd v)) (respond .written (dropCommand s))
  /-- A command write of an illegal word while Idle. -/
  | illegal (v : Word32) (e : DecodeError) (hr : s.inReset = false) (hi : s.eng = .idle)
      (hd : decodeWord v = .illegal e) :
      Effect s (some (writeTurn s.params .cmd v)) (respond .written (errorReport .illegalCmd (acceptWord v s)))
  /-- A command that needs a modulus, written while Idle with m = 0. -/
  | modZero (v : Word32) (i : Instr) (hr : s.inReset = false) (hi : s.eng = .idle) (hd : decodeWord v = .ok i)
      (hm : needsModulus i.fields.op = true) (hz : truncOperand i.fields.width s.regM = 0) :
      Effect s (some (writeTurn s.params .cmd v))
        (respond .written (errorReport .modZero (acceptWord (encode i) s)))
  /-- A command that issues. -/
  | issue (v : Word32) (i : Instr) (hr : s.inReset = false) (hi : s.eng = .idle) (hd : decodeWord v = .ok i)
      (hm : needsModulus i.fields.op = true → truncOperand i.fields.width s.regM ≠ 0) :
      Effect s (some (writeTurn s.params .cmd v))
        (respond .written (startJob (latchJob i.fields s) (acceptWord (encode i) s)))
  /-- A STATUS write. -/
  | status (v : Word32) (hr : s.inReset = false) :
      Effect s (some (writeTurn s.params .status v)) (respond .written (statusWrite v s))
  /-- A write of a register that only stores. -/
  | plain (r : Reg) (v : Word32) (hr : s.inReset = false) (hc : r ≠ .cmd) (hs : r ≠ .status) :
      Effect s (some (writeTurn s.params r v)) (respond .written (plainWrite r v s))
  /-- Complete. -/
  | complete (t : Option Turn) (j : Job) (hr : s.inReset = false) (h : s.eng = .busy j)
      (ht : t = none ∨ t = some .engine) : Effect s t (completeJob j s)
  /-- The reset input is asserted. -/
  | resetAssert (hr : s.inReset = false) : Effect s (some .resetAssert) (assertReset s)
  /-- The reset input is released. -/
  | resetRelease (hr : s.inReset = true) : Effect s (some .resetRelease) (afterReset s)

theorem commandWrite_effect (v : Word32) (s : State) (hr : s.inReset = false) :
    ∃ t, commandWrite v s = .next t ∧ Effect s (some (writeTurn s.params .cmd v)) (respond .written t) := by
  obtain ⟨j, h, e⟩ | ⟨hi, ⟨x, hd⟩, e⟩ | ⟨hi, i, hd, e⟩ := commandWrite_cases v s
  · exact ⟨_, e, .drop v j hr h⟩
  · exact ⟨_, e, .illegal v x hr hi hd⟩
  · rw [e, exec_eq]
    obtain ⟨j, h, _⟩ | ⟨_, hm, hz, h⟩ | ⟨_, hm, h⟩ := issueCommand_cases i.fields s
    · simp [hi] at h
    · exact ⟨_, rfl, by rw [h]; exact .modZero v i hr hi hd hm hz⟩
    · exact ⟨_, rfl, by rw [h]; exact .issue v i hr hi hd hm⟩

theorem hostAccess_effect (x : Transaction) (s : State) (hr : s.inReset = false) :
    ∃ t, hostAccess x s = .next t ∧ Effect s (some (.host x)) t := by
  cases x with
  | read addr size =>
    cases h : windowOffset s.params addr with
    | none => exact ⟨_, by simp only [hostAccess, h], .answer _ .silent⟩
    | some off => exact ⟨_, by simp only [hostAccess, h], .answer _ (readResponse s off size)⟩
  | write addr size v =>
    cases h : windowOffset s.params addr with
    | none => exact ⟨_, by simp only [hostAccess, h], .answer _ .silent⟩
    | some off =>
      simp only [hostAccess, h]
      obtain ⟨_, e⟩ | ⟨hb, e⟩ := writeAccess_cases off size v s
      · exact ⟨_, e, .answer _ .busError⟩
      · have hsize := size_of_badAccess_false hb
        obtain ⟨haddr, _⟩ := windowOffset_eq_some.1 h
        subst hsize haddr
        rw [e]
        obtain ⟨_, e⟩ | ⟨hq, e⟩ | ⟨hq, e⟩ | ⟨q, hq, hc, hs, e⟩ := registerWrite_cases (regAt off) v s
        · exact ⟨_, by rw [e]; rfl, .answer _ .written⟩
        · obtain ⟨t, ht, he⟩ := commandWrite_effect v s hr
          exact ⟨_, by rw [e, ht]; rfl, by rw [← regOffset_of_regAt hq]; exact he⟩
        · exact ⟨_, by rw [e]; rfl, by rw [← regOffset_of_regAt hq]; exact .status v hr⟩
        · exact ⟨_, by rw [e]; rfl, by rw [← regOffset_of_regAt hq]; exact .plain q v hr hc hs⟩

theorem engineTurn_effect (s : State) (t : Option Turn) (hr : s.inReset = false)
    (ht : t = none ∨ t = some .engine) : Effect s t (engineTurn s) := by
  obtain ⟨hi, e⟩ | ⟨j, h, e⟩ := engineTurn_cases s
  · rw [e]; exact .nothing t (.inr ⟨hr, .inr ⟨hi, ht⟩⟩)
  · rw [e]; exact .complete t j hr h ht

theorem takeTurn_effect (t : Turn) (s : State) : ∃ u, takeTurn t s = .next u ∧ Effect s (some t) u := by
  cases hr : s.inReset with
  | true =>
    refine ⟨turnInReset t s, by simp [takeTurn, hr], ?_⟩
    cases t with
    | host x => exact .answer x .silent
    | engine => exact .nothing _ (.inl ⟨hr, by simp⟩)
    | resetAssert => exact .nothing _ (.inl ⟨hr, by simp⟩)
    | resetRelease => exact .resetRelease hr
  | false =>
    cases t with
    | host x => simpa [takeTurn, hr] using hostAccess_effect x s hr
    | engine => exact ⟨_, by simp [takeTurn, hr], engineTurn_effect s _ hr (.inr rfl)⟩
    | resetAssert => exact ⟨_, by simp [takeTurn, hr], .resetAssert hr⟩
    | resetRelease => exact ⟨_, by simp [takeTurn, hr], .nothing _ (.inr ⟨hr, .inl rfl⟩)⟩

theorem quietTurn_effect (s : State) : Effect s none (quietTurn s) := by
  cases hr : s.inReset with
  | true => simp only [quietTurn, hr]; exact .nothing _ (.inl ⟨hr, by simp⟩)
  | false => simp only [quietTurn, hr]; exact engineTurn_effect s none hr (.inl rfl)

/-- Every step has a next state: one effect of the next turn on the state without it, then the working registers left
free. -/
theorem step_effect (s : State) :
    ∃ u, Effect (setTurns s.turns.tail s) s.turns.head? u ∧ step s = .next (refreshWork u) := by
  cases h : s.turns with
  | nil =>
    have e : setTurns ([] : List Turn).tail s = s := by
      cases s; simp_all [setTurns]
    exact ⟨quietTurn s, by rw [e]; exact quietTurn_effect s, by simp [step, nextTurn, h]⟩
  | cons t rest =>
    obtain ⟨u, hu, he⟩ := takeTurn_effect t (setTurns rest s)
    exact ⟨u, he, by simp [step, nextTurn, h, hu]⟩

/-- The inversion of a step: a next state comes from one effect. -/
theorem step_next {s t : State} (h : step s = .next t) :
    ∃ u, Effect (setTurns s.turns.tail s) s.turns.head? u ∧ t = refreshWork u := by
  obtain ⟨u, he, e⟩ := step_effect s
  rw [e] at h
  exact ⟨u, he, by simpa using h.symm⟩

/-- A step whose turn is a 32-bit host write of a register. -/
theorem step_write_reg {s : State} {r : Reg} {v : Word32} {rest : List Turn} (hr : s.inReset = false)
    (h : s.turns = writeTurn s.params r v :: rest) :
    step s = mapNext (fun t => refreshWork (respond .written t)) (registerWrite (some r) v (setTurns rest s)) := by
  have e := hostAccess_write_reg r v (setTurns rest s)
  simp only [setTurns_params] at e
  simp only [step, nextTurn, h, takeTurn, setTurns_inReset, hr, writeTurn, e]
  cases registerWrite (some r) v (setTurns rest s) <;> rfl

/-- A step whose turn is the engine's. -/
theorem step_engine {s : State} {rest : List Turn} (hr : s.inReset = false) (h : s.turns = .engine :: rest) :
    step s = .next (refreshWork (engineTurn (setTurns rest s))) := by
  simp [step, nextTurn, h, takeTurn, hr]

end Sys2Proof.Machine
end

