-- ==== Sys2Proof/Laws/Run.lean ====
section
/-!
SUPPORT. Runs of several steps.
-/

namespace Sys2Proof.Machine

@[simp] theorem stepsTo_zero (s t : State) : StepsTo 0 s t ↔ s = t := Iff.rfl

/-- A step and then k steps are k + 1 steps. -/
theorem stepsTo_succ {s t u : State} {k : Nat} (h : step s = .next t) (hk : StepsTo k t u) : StepsTo (k + 1) s u :=
  ⟨t, h, hk⟩

/-- One step. -/
theorem stepsTo_one {s t : State} (h : step s = .next t) : StepsTo 1 s t := stepsTo_succ h rfl

/-- Two steps. -/
theorem stepsTo_two {s t u : State} (h : step s = .next t) (h' : step t = .next u) : StepsTo 2 s u :=
  stepsTo_succ h (stepsTo_one h')

end Sys2Proof.Machine
end

