-- ==== Sys2Proof/Tests/Slice0.lean ====
section
/-!
SUPPORT. The implementer's own tests. Expected values come from spec/95_test_vectors.md and the examples of the instruction rules,
named in each comment; the words are written out from 30_encoding.md R90 and R97. Then one witness for each statement that
has hypotheses.
-/

namespace Sys2Proof.Tests

open Sys2Proof.Machine

/-! ### Well-formedness -/

theorem test_pow_portable_is_ill_formed : Fields.wellFormed ⟨.pow, .w32, .portable⟩ = false := by decide
theorem test_pow64_portable_is_ill_formed : Fields.wellFormed ⟨.pow, .w64, .portable⟩ = false := by decide
theorem test_geom_portable_is_well_formed : Fields.wellFormed ⟨.geom, .w64, .portable⟩ = true := by decide
theorem test_every_command_is_well_formed (i : Instr) : i.wellFormed = true := by cases i <;> decide

/-! ### Decoding: words written out bit by bit (R90: reserved 31..9, STRAT 8, reserved 7..5, W64 4, reserved 3, OP 2..0) -/

theorem test_decode_mulmod :
    decodeWord 0b00000000000000000000000_0_000_0_0_000#32 = .ok .mulmodW32Wide ∧
    decodeWord 0b00000000000000000000000_1_000_0_0_000#32 = .ok .mulmodW32Serial ∧
    decodeWord 0b00000000000000000000000_0_000_1_0_000#32 = .ok .mulmodW64Wide ∧
    decodeWord 0b00000000000000000000000_1_000_1_0_000#32 = .ok .mulmodW64Serial := by decide

theorem test_decode_pow :
    decodeWord 0b00000000000000000000000_0_000_0_0_001#32 = .ok .powW32 ∧
    decodeWord 0b00000000000000000000000_0_000_1_0_001#32 = .ok .powW64 := by decide

theorem test_decode_powmod :
    decodeWord 0b00000000000000000000000_0_000_0_0_010#32 = .ok .powmodW32Wide ∧
    decodeWord 0b00000000000000000000000_1_000_0_0_010#32 = .ok .powmodW32Serial ∧
    decodeWord 0b00000000000000000000000_0_000_1_0_010#32 = .ok .powmodW64Wide ∧
    decodeWord 0b00000000000000000000000_1_000_1_0_010#32 = .ok .powmodW64Serial := by decide

theorem test_decode_geom :
    decodeWord 0b00000000000000000000000_0_000_0_0_011#32 = .ok .geomW32Closed ∧
    decodeWord 0b00000000000000000000000_1_000_0_0_011#32 = .ok .geomW32Pair ∧
    decodeWord 0b00000000000000000000000_0_000_1_0_011#32 = .ok .geomW64Closed ∧
    decodeWord 0b00000000000000000000000_1_000_1_0_011#32 = .ok .geomW64Pair := by decide

/-- DEC-4 to DEC-9. -/
theorem test_decode_illegal :
    decodeWord 0x00000101#32 = .illegal .powPortable ∧ decodeWord 0x00000111#32 = .illegal .powPortable ∧
    decodeWord 0x00000004#32 = .illegal .reservedOp ∧ decodeWord 0x00000007#32 = .illegal .reservedOp ∧
    decodeWord 0x00000008#32 = .illegal .reservedBits ∧ decodeWord 0x00000020#32 = .illegal .reservedBits ∧
    decodeWord 0x00000080#32 = .illegal .reservedBits ∧ decodeWord 0x00000200#32 = .illegal .reservedBits ∧
    decodeWord 0x80000000#32 = .illegal .reservedBits ∧ decodeWord 0xFFFFFFFF#32 = .illegal .reservedBits := by decide

theorem test_decode_bytes : decodeBytes [0x13, 0x01, 0x00, 0x00, 0xAA] = .ok (.geomW64Pair, [0xAA]) := by decide
theorem test_decode_truncated : decodeBytes [0x13, 0x01, 0x00] = .illegal .truncated := by decide
theorem test_encode_bytes : encodeBytes .powmodW64Serial = [0x12, 0x01, 0x00, 0x00] := by decide
theorem test_table_word : decodeTableWord 32 0x112 = some .powmodW64Serial ∧ decodeTableWord 16 0x3 = some .geomW32Closed ∧
    decodeTableWord 32 0x101 = none ∧ decodeTableWord 40 0x100000000 = none := by decide

/-- 30_encoding.md R100 and 00_scope.md R1. -/
theorem test_disassemble : disassemble 0x00000110#32 = "mulmod.w64.serial" ∧
    disassemble 0x00000007#32 = ".illegal 0x00000007" ∧
    disassemble 0xFFFFFFFF#32 = ".illegal 0xFFFFFFFF" := by decide

theorem test_identifier : Config.defaultParams.identifier = "simplerandom-core-W32-W64+FAST32+FAST64" := by decide

/-! ### Results: a command written to an idle core, and Complete -/

/-- An idle core of a build without the FAST datapaths when `fast` is false, with these operand registers. -/
def operands (fast : Bool) (a b m n : Word64) : State :=
  { State.resetOf { fast32 := fast, fast64 := fast, basePage := 2 } with regA := a, regB := b, regM := m, regN := n }

/-- What RES holds after the command and Complete. -/
def resultOf (i : Instr) (s : State) : Option Word64 :=
  match exec i s with
  | .next t => some (engineTurn t).res
  | _ => none

/-- What STATUS reads after the command's write. -/
def statusAfter (i : Instr) (s : State) : Option Word32 :=
  match exec i s with
  | .next t => some (statusWord t.status)
  | _ => none

/-- MM-7, with garbage in the HI halves, which are not read. -/
theorem test_mulmod_w32_wide : resultOf .mulmodW32Wide
    (operands true 0xDEADBEEFFFFFFFFF 0x1FFFFFFFF 0x7FFFFFFFB 9) = some 0x10 := by decide
/-- MM-4. -/
theorem test_mulmod_w32_serial : resultOf .mulmodW32Serial (operands true 3 100 7 0) = some 6 := by decide
/-- R131. -/
theorem test_mulmod_w32_serial_large : resultOf .mulmodW32Serial
    (operands true 0x12345678 0x9ABCDEF0 0x7FFFFFFF 0) = some 0x3A2EF51C := by decide
/-- MM-14. -/
theorem test_mulmod_w64_wide : resultOf .mulmodW64Wide
    (operands true 0xFFFFFFFFFFFFFFFF 0xFFFFFFFFFFFFFFFF 0xFFFFFFFFFFFFFFC5 0) = some 0xD24 := by decide
/-- MM-15, run on the portable path because FAST64 is absent. -/
theorem test_mulmod_w64_wide_without_fast : resultOf .mulmodW64Wide
    (operands false 0x0123456789ABCDEF 0xFEDCBA9876543210 0x8000000000000001 0) = some 0x1FF2E48E8A71DE6C := by decide +kernel
/-- MM-18. -/
theorem test_mulmod_w64_serial : resultOf .mulmodW64Serial
    (operands true 0x8000000000000000 2 0x8000000000000001 0) = some 0x7FFFFFFFFFFFFFFF := by decide +kernel
/-- The bit-serial trace of 95_test_vectors.md 2.2: after iteration 3, (result, temp_b) = (5, 4). -/
theorem test_serial_trace : serialLoop 13 100 7 0 = (0, 2) ∧ serialLoop 13 100 7 1 = (2, 4) ∧
    serialLoop 13 100 7 3 = (3, 2) ∧ serialLoop 13 100 7 4 = (5, 4) := by decide
/-- POW-15: N_HI is read at W = 32. -/
theorem test_pow_w32_reads_all_of_n : resultOf .powW32 (operands true 2 0 0 0x100000005) = some 0 := by decide
/-- POW-10, with M = 0. -/
theorem test_pow_w32 : resultOf .powW32 (operands true 69069 0 0 0xFFFFFFFF) = some 0xA5E2A705 := by decide
/-- POW-W64-5. -/
theorem test_pow_w64 : resultOf .powW64
    (operands true 0x5851F42D4C957F2D 0 0 0xFFFFFFFFFFFFFFFF) = some 0xC097EF87329E28A5 := by decide +kernel
/-- PM-7. -/
theorem test_powmod_w32_wide : resultOf .powmodW32Wide (operands true 69069 0 0xFFFFFFFB 1000000) =
    some 0x50734DDE := by decide
/-- PM-1: the accumulator starts at 1 mod m. -/
theorem test_powmod_w32_serial_mod_one : resultOf .powmodW32Serial (operands true 5 0 1 0) = some 0 := by decide
/-- PM-5. -/
theorem test_powmod_w32_serial : resultOf .powmodW32Serial (operands true 10 0 7 3) = some 6 := by decide
/-- PM-W64-2. -/
theorem test_powmod_w64_wide : resultOf .powmodW64Wide
    (operands true 3 0 0xFFFFFFFFFFFFFFC5 0xFFFFFFFFFFFFFFFF) = some 0xEFA48D5F616F2807 := by decide +kernel
/-- PM-W64-4. -/
theorem test_powmod_w64_serial : resultOf .powmodW64Serial
    (operands true 0x0123456789ABCDEF 0 0x8000000000000001 1000000) = some 0x2B2A71A4C1908A57 := by decide +kernel
/-- GEOM-14. -/
theorem test_geom_w32_closed : resultOf .geomW32Closed (operands true 69069 0 0 1000000) = some 0x309B3CC0 := by decide
/-- GEOM-5: the r = 0 row of the closed-form traces, where P = 0. -/
theorem test_geom_w32_closed_zero : resultOf .geomW32Closed (operands true 0 0 0 5) = some 1 := by decide
/-- GEOM-18. -/
theorem test_geom_w32_pair : resultOf .geomW32Pair (operands true 69069 0 0 10) = some 0xE1D765E6 := by decide
/-- GEOM-2: n = 0 wins. -/
theorem test_geom_w32_pair_empty : resultOf .geomW32Pair (operands true 0 0 0 0) = some 0 := by decide
/-- GEOM-W64-6: k = 63, the largest modulus of the numerator. -/
theorem test_geom_w64_closed : resultOf .geomW64Closed (operands true 0x8000000000000001 0 0 7) =
    some 0x8000000000000007 := by decide +kernel
/-- GEOM-W64-5. -/
theorem test_geom_w64_closed_large : resultOf .geomW64Closed
    (operands true 0x5851F42D4C957F2D 0 0 1000000) = some 0x6E11F7EC75B750C0 := by decide +kernel
/-- GEOM-W64-10. -/
theorem test_geom_w64_pair : resultOf .geomW64Pair
    (operands true 0x5851F42D4C957F2D 0 0 1000) = some 0x44C8B3CCAECEFF78 := by decide

/-! ### Flags, errors, registers -/

/-- MM-20 and PM-Z: MOD_ZERO reads STATUS = 0x26; DEC-12: at W = 32 only M_LO is looked at. -/
theorem test_mod_zero : statusAfter .mulmodW64Serial (operands true 1 1 0 1) = some 0x26 ∧
    statusAfter .powmodW32Wide (operands true 1 1 0x100000000 1) = some 0x26 ∧
    statusAfter .powmodW64Wide (operands true 1 1 0x100000000 1) = some 0x01 ∧
    statusAfter .geomW32Closed (operands true 1 1 0 1) = some 0x01 := by decide

/-- The answer to the next turn, and STATUS after it. -/
def answerAndStatus (s : State) : Option (Response × Word32) :=
  match step s with
  | .next t => some (t.response, statusWord t.status)
  | _ => none

/-- DEC-10: an illegal word with M = 0 reports ILLEGAL_CMD, STATUS = 0x16, through a write to CMD. -/
theorem test_illegal_before_mod_zero :
    answerAndStatus { operands true 0 0 0 0 with turns := [.host (.write 0x200 4 0x00000007)] } =
      some (.written, 0x16) := by decide
/-- REG-1 and REG-2. -/
theorem test_caps : readResponse (State.resetOf ⟨true, true, 0⟩) 0x0C 4 = .data 3 ∧
    readResponse (State.resetOf ⟨true, false, 0⟩) 0x0C 4 = .data 1 := by decide
/-- REG-8 and REG-10: a misaligned read, and a CMD write of two bytes, get a bus error and start nothing. -/
theorem test_bus_error :
    answerAndStatus { operands true 0 0 1 0 with turns := [.host (.read 0x206 4)] } = some (.busError, 0) ∧
    answerAndStatus { operands true 0 0 1 0 with turns := [.host (.write 0x200 2 0x0001)] } = some (.busError, 0) := by
  decide
/-- R60: an address outside the window is not answered. -/
theorem test_undecoded :
    answerAndStatus { operands true 0 0 1 0 with turns := [.host (.write 0x300 4 0)] } = some (.silent, 0) ∧
    answerAndStatus { operands true 0 0 1 0 with turns := [.host (.read 0x1FC 4)] } = some (.silent, 0) := by decide
/-- REG-11: byte lanes. -/
theorem test_byte_lanes : [0x10, 0x11, 0x12, 0x13].map
    (windowByte (plainWrite .aLo 0x44332211 (operands true 0 0 0 0))) = [0x11, 0x22, 0x33, 0x44] := by decide
/-- REG-12. -/
theorem test_irqen : irqenWord (irqenOfWord 0xFFFFFFFF) = 7 := by decide
/-- STS-1, STS-2, STS-3, STS-4. -/
theorem test_status_writes :
    statusWord (Status.writeOneClear ⟨false, true, true, false, 2⟩ 0x4) = 0x02 ∧
    statusWord (Status.writeOneClear ⟨false, true, true, false, 2⟩ 0x2) = 0x24 ∧
    statusWord (Status.writeOneClear ⟨true, false, false, true, 0⟩ 0xFFFFFFFF) = 0x01 ∧
    statusWord (Status.writeOneClear ⟨false, true, false, true, 0⟩ 0) = 0x0A := by decide
/-- IRQ-1 to IRQ-4. -/
theorem test_irq : irqLevel ⟨false, true, false, false, 0⟩ (irqenOfWord 1) = true ∧
    irqLevel ⟨false, true, false, false, 0⟩ (irqenOfWord 2) = false ∧
    irqLevel ⟨false, true, true, false, 1⟩ (irqenOfWord 2) = true ∧
    irqLevel ⟨true, false, false, true, 0⟩ (irqenOfWord 4) = true := by decide
/-- P3, line 15, outcome (A): a CMD write while Busy reads STATUS = 0x09. -/
theorem test_overrun :
    answerAndStatus { operands true 3 0 5 1 with
      eng := .busy ⟨.pow, .w32, .fast, 3, 0, 5, 1⟩
      status := { busy := true, done := false, err := false, ovr := false, errcode := 0 }
      turns := [.host (.write 0x200 4 0x11)] } = some (.written, 0x09) := by decide
/-- P1, line 1: the script line `li64 A, ...` as its two writes. -/
theorem test_li64 : expandLine ⟨true, true, 1⟩ (.li64 .a 0xFFFFFFFF00004373) =
    [.host (.write 0x110 4 0x00004373), .host (.write 0x114 4 0xFFFFFFFF)] := by decide
/-- The first instruction after reset: pow.w32 issues, mulmod.w32.wide is rejected for M = 0 (R273, P3 lines 1 and 2). -/
theorem test_first_instruction :
    answerAndStatus (State.reset.withFetchWord 32 0x00000001) = some (.written, 0x01) ∧
    answerAndStatus (State.reset.withFetchWord 32 0x00000000) = some (.written, 0x26) := by decide

/-! ### Witnesses: concrete states and operands that meet each statement's hypotheses together -/

/-- An idle core with operands that every command accepts. -/
def ready : State := operands true 3 100 7 5

/-- The job of mulmod.w32.serial on `ready`. -/
def runningJob : Job := ⟨.mulmod, .w32, .portable, 3, 100, 7, 5⟩

/-- `ready` while it runs mulmod.w32.serial. -/
def running : State := startJob runningJob (acceptWord 0x100 ready)

theorem witness_running_is_reached : exec .mulmodW32Serial ready = .next running := rfl

theorem witness_ReservedBitsMakeAWordIllegal :
    (0x8#32).getLsbD 3 = true ∧ (0x20#32).extractLsb' 5 3 ≠ 0 ∧ (0x80#32).extractLsb' 5 3 ≠ 0 ∧
    (0x200#32).extractLsb' 9 23 ≠ 0 ∧ (0x80000000#32).extractLsb' 9 23 ≠ 0 ∧
    decodeWord 0x3#32 = .ok .geomW32Closed := by decide
theorem witness_BoundedAddIsModularAdd :
    ((0xFFFFFFFE < 0xFFFFFFFF ∧ 1 ≤ 0xFFFFFFFF ∧ 0xFFFFFFFF ≤ 2 ^ 32 - 1) ∧ 0xFFFFFFFE ≥ 0xFFFFFFFF - 0xFFFFFFFE) ∧
    (0 < 1 ∧ 1 ≤ 1 ∧ 1 ≤ 2 ^ 64 - 1 ∧ ¬ 0 ≥ 1 - 0) := by decide
theorem witness_OperandIsFullyReduced : (1 : Nat) ≤ 7 ∧ reduceOperand 6 7 = 6 ∧ reduceOperand 13 7 = 6 ∧
    reduceOperand 14 7 = 0 := by decide
theorem witness_SerialLoopKeepsItsInvariant : (1 : Nat) ≤ 7 := by decide
theorem witness_MulmodStrategiesAgree :
    (64 = 32 ∨ 64 = 64) ∧ 2 ^ 64 - 1 < 2 ^ 64 ∧ 1 ≤ 2 ^ 64 - 1 ∧ 2 ^ 64 - 1 ≤ 2 ^ 64 - 1 := by decide
theorem witness_PowUnitIsThePower : (32 = 32 ∨ 32 = 64) ∧ 0 < 2 ^ 32 ∧ 2 ^ 64 - 1 ≤ 2 ^ 64 - 1 := by decide
theorem witness_PowInvertsOddValues : (64 = 32 ∨ 64 = 64) ∧ 2 ^ 64 - 1 < 2 ^ 64 ∧ (2 ^ 64 - 1) % 2 = 1 := by decide
theorem witness_PowOfEvenBaseVanishes : (32 = 32 ∨ 32 = 64) ∧ 2 ^ 32 - 2 < 2 ^ 32 ∧ (2 ^ 32 - 2) % 2 = 0 := by decide
theorem witness_PowmodStartsAtOneModM : (1 : Nat) ≤ 1 ∧ (1 : Nat) ≤ 2 := by decide
theorem witness_PowmodMultipliersAgree :
    (32 = 32 ∨ 32 = 64) ∧ 2 ^ 32 - 1 < 2 ^ 32 ∧ 2 ^ 64 - 1 < 2 ^ 64 ∧ 1 ≤ 2 ^ 32 - 1 ∧ 2 ^ 32 - 1 ≤ 2 ^ 32 - 1 ∧
    2 ^ 64 - 1 = (2 ^ 64 - 2) + 1 := by decide
theorem witness_PairingLoopKeepsItsInvariant :
    (32 = 32 ∨ 32 = 64) ∧ 1 ≤ 1 ∧ 1 < 2 ^ (0 + 1) ∧ 2 ^ 64 - 1 < 2 ^ (64 + 1) ∧ 2 ^ 64 - 1 < 2 ^ 64 := by decide
theorem witness_GeomStrategiesAgree : (64 = 32 ∨ 64 = 64) ∧ 0 < 2 ^ 64 ∧ 0 < 2 ^ 64 ∧ 2 ^ 64 - 1 < 2 ^ 64 := by decide
theorem witness_GeomAtRatioOneIsTheCount : (32 = 32 ∨ 32 = 64) ∧ 2 ^ 64 - 1 < 2 ^ 64 := by decide
theorem witness_GeomRecurrence : (32 = 32 ∨ 32 = 64) ∧ 2 ^ 32 - 1 < 2 ^ 32 ∧ 2 ^ 64 - 2 + 1 < 2 ^ 64 := by decide

/-- The job of `running` is one that issue produces; so is the job of each other operation. -/
theorem witness_ComputeReturnsTheContract :
    runningJob.Valid ready.params ∧ Job.Valid ready.params ⟨.pow, .w64, .fast, 3, 0, 0, 5⟩ ∧
    Job.Valid ready.params ⟨.powmod, .w32, .fast, 0xFFFFFFFF, 0, 0xFFFFFFFF, 5⟩ ∧
    Job.Valid ready.params ⟨.geom, .w32, .portable, 3, 0, 0, 5⟩ :=
  ⟨⟨by decide, by decide, by decide, by decide, .portable, by decide, by decide⟩,
   ⟨by decide, by decide, by decide, by decide, .fast, by decide, by decide⟩,
   ⟨by decide, by decide, by decide, by decide, .fast, by decide, by decide⟩,
   ⟨by decide, by decide, by decide, by decide, .portable, by decide, by decide⟩⟩

theorem witness_MulmodCommandsIssueAndComplete : ready.eng = .idle ∧ ready.regM.toNat % 2 ^ 32 ≠ 0 ∧
    ready.regM.toNat % 2 ^ 64 ≠ 0 ∧ (Instr.mulmodW32Serial, 32, Strategy.portable) ∈
      [(Instr.mulmodW32Wide, 32, Strategy.fast), (.mulmodW32Serial, 32, .portable),
        (.mulmodW64Wide, 64, .fast), (.mulmodW64Serial, 64, .portable)] := by decide
theorem witness_PowCommandsIssueAndComplete : ready.eng = .idle ∧
    (Instr.powW64, 64) ∈ [(Instr.powW32, 32), (.powW64, 64)] := by decide
theorem witness_PowmodCommandsIssueAndComplete : ready.eng = .idle ∧ ready.regM.toNat % 2 ^ 32 ≠ 0 ∧
    ready.regM.toNat % 2 ^ 64 ≠ 0 ∧ (Instr.powmodW64Wide, 64, Strategy.fast) ∈
      [(Instr.powmodW32Wide, 32, Strategy.fast), (.powmodW32Serial, 32, .portable),
        (.powmodW64Wide, 64, .fast), (.powmodW64Serial, 64, .portable)] := by decide
theorem witness_GeomCommandsIssueAndComplete : ready.eng = .idle ∧ (Instr.geomW32Closed, 32, Strategy.fast) ∈
      [(Instr.geomW32Closed, 32, Strategy.fast), (.geomW32Pair, 32, .portable),
        (.geomW64Closed, 64, .fast), (.geomW64Pair, 64, .portable)] := by decide
/-- At W = 32, M_LO = 0 with M_HI ≠ 0 meets the first clause. -/
theorem witness_ModZeroIsReported : (operands true 1 1 0x100000000 1).eng = .idle ∧
    (operands true 1 1 0x100000000 1).regM.toNat % 2 ^ 32 = 0 ∧ (operands true 1 1 0 1).regM.toNat % 2 ^ 64 = 0 := by
  decide
theorem witness_IllegalCommandIsReported : ready.eng = .idle ∧ ∀ i : Instr, (0x00000004#32) ≠ encode i :=
  ⟨rfl, fun i => by cases i <;> decide⟩

/-- `running` with an overrun already recorded. -/
def overrunRunning : State := dropCommand running

/-- OVR stays over a step, is taken away by a STATUS write with bit 3 set, and by the end of reset. -/
theorem witness_OverrunDropsTheCommandAndSticks : running.eng = .busy runningJob ∧ overrunRunning.status.ovr = true ∧
    (∃ t, step overrunRunning = .next t ∧ t.status.ovr = true) ∧
    (∃ t, step { overrunRunning with turns := [.host (.write 0x204 4 0x8)] } = .next t ∧ t.status.ovr = false) ∧
    (∃ t, step { overrunRunning with inReset := true, turns := [.resetRelease] } = .next t ∧ t.status.ovr = false) :=
  ⟨rfl, rfl, ⟨_, rfl, rfl⟩, ⟨_, rfl, rfl⟩, ⟨_, rfl, rfl⟩⟩
theorem witness_CommandsChangeOnlyCmdStatusAndEngine : (∃ t, exec .powW32 ready = .next t) ∧
    (∃ t, exec .powW32 running = .next t) ∧ ready.eng = .idle ∧ running.eng ≠ .idle :=
  ⟨⟨_, rfl⟩, ⟨_, rfl⟩, rfl, by decide⟩

/-- `ready` with other values in what mulmod.w32 does not read: the HI halves and N. -/
def readyOther : State := operands true 0x900000003 0x800000064 0x700000007 6

theorem witness_UnreadOperandsHaveNoEffect :
    readyOther.eng = .idle ∧ readyOther.params = ready.params ∧ readyOther.status = ready.status ∧
    readyOther.res = ready.res ∧ readyOther.regA.toNat % 2 ^ 32 = ready.regA.toNat % 2 ^ 32 ∧
    readyOther.regB.toNat % 2 ^ 32 = ready.regB.toNat % 2 ^ 32 ∧
    readyOther.regM.toNat % 2 ^ 32 = ready.regM.toNat % 2 ^ 32 ∧ readyOther.regN ≠ ready.regN ∧
    (∃ t, exec .mulmodW32Wide ready = .next t) ∧ (∃ t, exec .mulmodW32Wide readyOther = .next t) :=
  ⟨rfl, rfl, rfl, rfl, by decide, by decide, by decide, by decide, ⟨_, rfl⟩, ⟨_, rfl⟩⟩
theorem witness_StrategyAndBuildNeverChangeTheResult :
    Instr.geomW64Pair.fields.op = Instr.geomW64Closed.fields.op ∧
    Instr.geomW64Pair.fields.width = Instr.geomW64Closed.fields.width ∧ ready.eng = .idle ∧
    (∃ t, exec .geomW64Closed ready = .next t) ∧
    (∃ t, exec .geomW64Pair { ready with params := ⟨false, false, 5⟩ } = .next t) :=
  ⟨rfl, rfl, rfl, ⟨_, rfl⟩, ⟨_, rfl⟩⟩
/-- BASE of the build of `ready` is 0x200. A legal word, and an illegal one while Idle. -/
theorem witness_StepRunsTheDecodedCommand : (∃ s : State, s.inReset = false ∧
    s.turns = .host (.write s.params.base 4 0x112#32) :: [.engine] ∧ decodeWord 0x112#32 = .ok .powmodW64Serial) ∧
    (∃ s : State, s.inReset = false ∧ s.turns = .host (.write s.params.base 4 0x101#32) :: [.engine] ∧ s.eng = .idle ∧
      ∀ i : Instr, (0x101#32) ≠ encode i) :=
  ⟨⟨{ ready with turns := [.host (.write 0x200 4 0x112#32), .engine] }, rfl, rfl, by decide⟩,
   ⟨{ ready with turns := [.host (.write 0x200 4 0x101#32), .engine] }, rfl, rfl, rfl, fun i => by cases i <;> decide⟩⟩
theorem witness_CompleteWritesTheResult : ∃ s : State, s.inReset = false ∧ s.eng = .busy runningJob ∧
    s.turns = .engine :: [] := ⟨{ running with turns := [.engine] }, rfl, rfl, rfl⟩
theorem witness_BusyEngineCompletes : running.inReset = false ∧ running.eng = .busy runningJob ∧
    Turn.resetAssert ∉ running.turns ∧
    Turn.resetAssert ∉ [Turn.host (.read 0x204 4), .resetRelease, .engine] := by decide
theorem witness_CommandRacesWithCompletion : running.inReset = false ∧ running.eng = .busy runningJob := ⟨rfl, rfl⟩
/-- Each way a step can leave a Busy state: still Busy, completed, reset ended. -/
theorem witness_LatchedJobIsNeverChanged : running.eng = .busy runningJob ∧
    (∃ t, step { running with turns := [.host (.write 0x210 4 9)] } = .next t ∧ t.eng = .busy runningJob) ∧
    (∃ t, step running = .next t ∧ t.eng = .idle ∧ t.res = 6) ∧
    (∃ t, step { running with inReset := true, turns := [.resetRelease] } = .next t ∧ t.eng = .idle ∧ t.res = 0) :=
  ⟨rfl, ⟨_, rfl, rfl⟩, ⟨_, rfl, rfl, by decide⟩, ⟨_, rfl, rfl, rfl⟩⟩
/-- RES stays, is written by Complete, and is made 0 by the end of reset. -/
theorem witness_ResultIsWrittenOnlyByCompletion : (∃ t, step ready = .next t ∧ t.res = ready.res) ∧
    (∃ t, step running = .next t ∧ t.res ≠ running.res) ∧
    (∃ t, step { ready with res := 6, inReset := true, turns := [.resetRelease] } = .next t ∧ t.res = 0) :=
  ⟨⟨_, rfl, rfl⟩, ⟨_, rfl, by decide⟩, ⟨_, rfl, rfl⟩⟩
/-- ERR rises for an illegal word and for m = 0, OVR while Busy. -/
theorem witness_ErrorsComeOnlyFromCommandWrites :
    (∃ t, step { ready with turns := [.host (.write 0x200 4 0x7)] } = .next t ∧ ready.status.err = false ∧
      t.status.err = true ∧ t.status.errcode = 1) ∧
    (∃ t, step { operands true 1 1 0 1 with turns := [.host (.write 0x200 4 0x2)] } = .next t ∧
      t.status.err = true ∧ t.status.errcode = 2) ∧
    (∃ t, step { running with turns := [.host (.write 0x200 4 0x2)] } = .next t ∧ running.status.ovr = false ∧
      t.status.ovr = true) :=
  ⟨⟨_, rfl, rfl, rfl, rfl⟩, ⟨_, rfl, rfl, rfl⟩, ⟨_, rfl, rfl, rfl⟩⟩
theorem running_inv : running.Inv where
  busy_iff := by decide
  err_iff := by decide
  code_le := by decide
  busy_quiet := by decide
  job_valid := fun j h => by
    obtain rfl : runningJob = j := by injection h
    exact ⟨by decide, by decide, by decide, by decide, .portable, by decide, by decide⟩
  job_runs := fun j h => by
    obtain rfl : runningJob = j := by injection h
    exact ⟨.mulmodW32Serial, by decide, by decide, by decide, by decide⟩

/-- A Busy state that meets the invariant and has a next state. -/
theorem witness_EveryStepKeepsTheInvariant : running.Inv ∧ ∃ t, step running = .next t := ⟨running_inv, _, rfl⟩
/-- One step that takes no CMD write and no reset, after which BUSY reads 0. -/
theorem witness_HandshakeReturnsTheResult : running.Inv ∧ running.inReset = false ∧ running.eng = .busy runningJob ∧
    (∃ t, StepsTo 1 running t ∧ t.status.busy = false) ∧ Turn.resetAssert ∉ running.turns.take 1 ∧
    (∀ v, Turn.host (.write running.params.base 4 v) ∉ running.turns.take 1) :=
  ⟨running_inv, rfl, rfl, ⟨_, ⟨_, rfl, rfl⟩, rfl⟩, by decide, fun v => by simp [running, ready, startJob, acceptWord, operands]⟩
theorem witness_CapsIsConstant : ∃ t, step running = .next t := ⟨_, rfl⟩
theorem witness_WrongSizeOrAlignmentIsABusError : (0xFC < 0x100 ∧ (2 ≠ 4 ∨ 0xFC % 4 ≠ 0)) ∧
    (0xFF < 0x100 ∧ (4 ≠ 4 ∨ 0xFF % 4 ≠ 0)) := by decide
theorem witness_OutsideTheWindowNothingHappens :
    (0x1FF < ready.params.base ∨ ready.params.base + 0x100 ≤ 0x1FF) ∧
    (0x300 < ready.params.base ∨ ready.params.base + 0x100 ≤ 0x300) := by decide
theorem witness_OperandHalvesReadBack : (0x10 ∈ [0x10, 0x14, 0x18, 0x1C, 0x20, 0x24, 0x28, 0x2C]) ∧
    (0x2C ∈ [0x10, 0x14, 0x18, 0x1C, 0x20, 0x24, 0x28, 0x2C]) := by decide
theorem witness_ReadOnlyAndReservedOffsetsIgnoreWrites :
    0x34 % 4 = 0 ∧ (0x38 % 4 = 0 ∧ 0x38 ≤ 0x38 ∧ 0x38 ≤ 0xFC) ∧ (0xFC % 4 = 0 ∧ 0x38 ≤ 0xFC ∧ 0xFC ≤ 0xFC) := by decide
/-- IRQ is the same function in reset: 0 with IRQEN = 0, and 1 with an enabled cause. -/
theorem test_irq_in_reset :
    ({ ready with inReset := true, status := { ready.status with done := true } } : State).irq = false ∧
    ({ ready with inReset := true, status := { ready.status with done := true }, irqen := irqenOfWord 1 } : State).irq =
      true := by decide
theorem witness_ReadsHaveNoSideEffect : 0xFF < 0x100 ∧ readResponse ready 0x10 4 = .data 3 := by decide
/-- A read and a write of `ready`, whose BASE is 0x200, at both ends of the window. -/
theorem witness_TransactionsReachTheWindow : (0 < 0x100 ∧ 0xFF < 0x100) ∧
    ∃ s u : State, s.inReset = false ∧ s.turns = .host (.read 0x2FC 4) :: [.engine] ∧
      hostAccess (.read 0x2FC 4) { s with turns := [.engine] } = .next u :=
  ⟨by decide, { ready with turns := [.host (.read 0x2FC 4), .engine] }, _, rfl, rfl, rfl⟩
theorem witness_WindowBytesAreLittleEndian : 0xFC % 4 = 0 ∧ 3 < 4 := by decide
theorem witness_ResetReleaseLeavesResetValues : ∃ s : State, s.inReset = true ∧ s.eng = .busy runningJob ∧
    s.turns = .resetRelease :: [.engine] :=
  ⟨{ running with inReset := true, turns := [.resetRelease, .engine] }, rfl, rfl, rfl⟩
theorem witness_NothingHappensWhileResetIsAsserted :
    (∃ s : State, s.inReset = false ∧ s.turns = .resetAssert :: []) ∧
    (∃ s t : State, s.inReset = true ∧ (∀ rest, s.turns ≠ .resetRelease :: rest) ∧ step s = .next t) :=
  ⟨⟨{ running with turns := [.resetAssert] }, rfl, rfl⟩,
   ⟨{ running with inReset := true, turns := [.engine] }, _, rfl, by simp, rfl⟩⟩
theorem witness_LoadImmediateLoadsBothHalves : ∃ s : State, Reg64.n ≠ .res ∧ s.inReset = false ∧
    s.turns = expandLine s.params (.li64 .n 0x100000005) ++ [.engine] :=
  ⟨{ running with turns := expandLine running.params (.li64 .n 0x100000005) ++ [.engine] }, by decide, rfl, rfl⟩
theorem witness_ClearStatusClearsEveryReport : ∃ s : State, s.inReset = false ∧ s.status.ovr = true ∧
    s.turns = expandLine s.params .clrstat ++ [] :=
  ⟨{ overrunRunning with turns := expandLine running.params .clrstat }, rfl, rfl, rfl⟩
theorem witness_DisassemblerPrintsMnemonics : ∀ i : Instr, (0x00000101#32) ≠ encode i := fun i => by cases i <;> decide

end Sys2Proof.Tests
end

section
/-!
PROOFS. O29 (00_scope.md R19, 30_encoding.md R101): neither STRAT nor the build changes a result. Both strategies of each unit
are shown to compute the unit's contract, so what Complete writes to RES is a function of the operation, the width and the
operand registers alone.
-/

namespace Sys2Proof.Machine

/-! ### The modular_multiplier (40_modmul.md) -/

/-- R122. -/
theorem addmod_eq {x y m : Nat} (hx : x < m) (hy : y < m) : addmod x y m = (x + y) % m := by
  unfold addmod
  split
  next h => rw [Nat.mod_eq_sub_mod (by omega), Nat.mod_eq_of_lt (by omega)]; omega
  next h => rw [Nat.mod_eq_of_lt (by omega)]

/-- R123. -/
theorem reduceOperand_eq_mod (b m : Nat) : reduceOperand b m = b % m := by
  unfold reduceOperand
  split
  next h => rw [Nat.mod_eq_of_lt h]
  next h =>
    split
    next h2 => rw [Nat.mod_eq_sub_mod (by omega), Nat.mod_eq_of_lt (by omega)]
    next => rfl

/-- One iteration carries the invariant of R124 from i to i + 1. -/
theorem serialStep_eq (a b m i : Nat) (hm : 0 < m) :
    serialStep a m i (b * (a % 2 ^ i) % m, b * 2 ^ i % m) = (b * (a % 2 ^ (i + 1)) % m, b * 2 ^ (i + 1) % m) := by
  have hlt (x : Nat) : x % m < m := Nat.mod_lt x hm
  have hbit : a % 2 ^ (i + 1) = a % 2 ^ i + 2 ^ i * (a.testBit i).toNat := by
    rw [Nat.mod_pow_succ, Nat.toNat_testBit]
  simp only [serialStep, addmod_eq (hlt _) (hlt _), ← Nat.add_mod, hbit]
  cases a.testBit i <;> simp [Nat.mul_add, pow_succ, Nat.mul_two]

/-- The invariant of R124. -/
theorem serialLoop_eq (a b m i : Nat) (hm : 0 < m) :
    serialLoop a b m i = (b * (a % 2 ^ i) % m, b * 2 ^ i % m) := by
  induction i with
  | zero => simp [serialLoop, reduceOperand_eq_mod, Nat.mod_one]
  | succ i ih => rw [serialLoop, ih, serialStep_eq a b m i hm]

/-- R125: the bit-serial strategy gives what the wide one gives. b and m may be of any width. -/
theorem mulmodSerial_eq_mulmodWide {w a m : Nat} (b : Nat) (ha : a < 2 ^ w) (hm : 0 < m) :
    mulmodSerial w a b m = mulmodWide a b m := by
  rw [mulmodSerial, serialLoop_eq a b m w hm, Nat.mod_eq_of_lt ha, Nat.mul_comm]
  rfl

/-! ### Square and multiply: the modular_exponentiation_engine and the power_engine (42_powmod.md, 41_pow.md) -/

/-- The loop of R171 over the exact multiplier. -/
theorem powmodLoop_mulmodWide {m : Nat} : ∀ {fuel acc e : Nat} (sq : Nat), acc < m → e < 2 ^ fuel →
    powmodLoop mulmodWide m fuel acc sq e = acc * sq ^ e % m
  | 0, acc, e, sq, hacc, he => by
    obtain rfl : e = 0 := by simpa using he
    simp [powmodLoop, Nat.mod_eq_of_lt hacc]
  | fuel + 1, acc, e, sq, hacc, he => by
    by_cases h0 : e = 0
    · simp [powmodLoop, h0, Nat.mod_eq_of_lt hacc]
    have hm : 0 < m := by omega
    have hlt : (if e % 2 = 1 then mulmodWide acc sq m else acc) < m := by
      split
      · exact Nat.mod_lt _ hm
      · exact hacc
    have hmul : (if e % 2 = 1 then mulmodWide acc sq m else acc) ≡ acc * sq ^ (e % 2) [MOD m] := by
      split
      next h => rw [h, pow_one]; exact Nat.mod_modEq _ _
      next h => rw [show e % 2 = 0 by omega, pow_zero, mul_one]
    have hsq : (if e / 2 ≠ 0 then mulmodWide sq sq m else sq) ^ (e / 2) ≡ (sq * sq) ^ (e / 2) [MOD m] := by
      split
      · exact (Nat.mod_modEq _ _).pow _
      next h => rw [not_not.mp h, pow_zero, pow_zero]
    rw [powmodLoop, if_neg h0, powmodLoop_mulmodWide _ hlt (by rw [pow_succ] at he; omega)]
    calc _ ≡ acc * sq ^ (e % 2) * (sq * sq) ^ (e / 2) [MOD m] := hmul.mul hsq
      _ = acc * sq ^ e := by rw [← pow_two, ← pow_mul, mul_assoc, ← pow_add, Nat.mod_add_div]

/-- R170 for the exact multiplier, at every modulus. -/
theorem powmodOver_mulmodWide {n m : Nat} (base : Nat) (hn : n < 2 ^ countBits) (hm : 0 < m) :
    powmodOver mulmodWide base n m = base ^ n % m := by
  rw [powmodOver, powmodLoop_mulmodWide base (Nat.mod_lt _ hm) hn, Nat.mod_mul_mod, one_mul]

/-- The loop of R171 stays where the two multipliers agree: both running values are below 2^w. -/
theorem powmodLoop_mulmodSerial {w m : Nat} (hm : 0 < m) (hmw : m ≤ 2 ^ w) : ∀ {fuel acc sq : Nat} (e : Nat),
    acc < 2 ^ w → sq < 2 ^ w → powmodLoop (mulmodSerial w) m fuel acc sq e = powmodLoop mulmodWide m fuel acc sq e
  | 0, _, _, _, _, _ => rfl
  | fuel + 1, acc, sq, e, hacc, hsq => by
    have hlt (x y : Nat) : mulmodWide x y m < 2 ^ w := (Nat.mod_lt _ hm).trans_le hmw
    simp only [powmodLoop, mulmodSerial_eq_mulmodWide sq hacc hm, mulmodSerial_eq_mulmodWide sq hsq hm]
    split
    · rfl
    · apply powmodLoop_mulmodSerial hm hmw
      · split
        · exact hlt _ _
        · exact hacc
      · split
        · exact hlt _ _
        · exact hsq

/-- R173: the two multipliers give the same power. -/
theorem powmodOver_mulmodSerial {w base m : Nat} (n : Nat) (hb : base < 2 ^ w) (hm : 0 < m) (hmw : m ≤ 2 ^ w) :
    powmodOver (mulmodSerial w) base n m = powmodOver mulmodWide base n m :=
  powmodLoop_mulmodSerial hm hmw n ((Nat.mod_lt _ hm).trans_le hmw) hb

/-- Wraparound arithmetic is arithmetic modulo 2^w, so the loop of R151 is the loop of R171 at that modulus. -/
theorem powLoop_eq_powmodLoop (w : Nat) : ∀ fuel acc sq e : Nat,
    powLoop w fuel acc sq e = powmodLoop mulmodWide (2 ^ w) fuel acc sq e
  | 0, _, _, _ => rfl
  | fuel + 1, acc, sq, e => by
    rw [powLoop, powmodLoop, powLoop_eq_powmodLoop w fuel]
    rfl

/-- R150. -/
theorem powUnit_eq {w n : Nat} (base : Nat) (hw : 0 < w) (hn : n < 2 ^ countBits) :
    powUnit w base n = base ^ n % 2 ^ w := by
  rw [powUnit, powLoop_eq_powmodLoop, powmodLoop_mulmodWide base (Nat.one_lt_two_pow hw.ne') hn, one_mul]

/-- R152: the power_engine inverts an odd value, by Euler's theorem. -/
theorem mul_powUnit_modEq_one {w x : Nat} (hw : 0 < w) (hw64 : w ≤ countBits) (hx : x % 2 = 1) :
    x * powUnit w x (2 ^ w - 1) ≡ 1 [MOD 2 ^ w] := by
  have hpos : 0 < 2 ^ w := by positivity
  have hcount : 2 ^ w - 1 < 2 ^ countBits := by
    have := Nat.pow_le_pow_right two_pos hw64
    omega
  have hcop : Nat.Coprime x (2 ^ w) := (Nat.coprime_two_right.mpr (Nat.odd_iff.mpr hx)).pow_right w
  have hexp : 2 ^ w = Nat.totient (2 ^ w) * 2 := by
    rw [Nat.totient_prime_pow Nat.prime_two hw, Nat.add_one_sub_one, mul_one, ← pow_succ, Nat.sub_add_cancel hw]
  rw [powUnit_eq x hw hcount]
  calc x * (x ^ (2 ^ w - 1) % 2 ^ w) ≡ x * x ^ (2 ^ w - 1) [MOD 2 ^ w] := (Nat.mod_modEq _ _).mul_left x
    _ = (x ^ Nat.totient (2 ^ w)) ^ 2 := by rw [← pow_succ', Nat.sub_add_cancel hpos, ← pow_mul, ← hexp]
    _ ≡ 1 ^ 2 [MOD 2 ^ w] := (Nat.ModEq.pow_totient hcop).pow 2
    _ = 1 := one_pow 2

/-! ### The geometric_series_mod_2w_engine (43_geomseries.md) -/

/-- A series respects congruence in its ratio. -/
theorem geomSum_modEq {m r r' : Nat} (n : Nat) (h : r ≡ r' [MOD m]) :
    ∑ i ∈ Finset.range n, r ^ i ≡ ∑ i ∈ Finset.range n, r' ^ i [MOD m] :=
  Nat.ModEq.sum fun i _ => h.pow i

/-- R201: a series of 2h terms pairs up into one of h terms. -/
theorem geomSum_pair (t h : Nat) :
    ∑ i ∈ Finset.range (2 * h), t ^ i = (1 + t) * ∑ i ∈ Finset.range h, (t * t) ^ i := by
  induction h with
  | zero => simp
  | succ h ih =>
    rw [Nat.mul_succ, Finset.sum_range_succ, Finset.sum_range_succ, ih, Finset.sum_range_succ, ← pow_two, ← pow_mul]
    ring

/-- The invariant of R201: the loop adds to result what is left of the series. -/
theorem pairLoop_eq {w : Nat} (hw : 0 < w) : ∀ {fuel e : Nat} (result mult t : Nat),
    1 ≤ e → e < 2 ^ (fuel + 1) → e < 2 ^ countBits →
    pairLoop w fuel result mult t e = (result + mult * ∑ i ∈ Finset.range e, t ^ i) % 2 ^ w
  | 0, e, result, mult, t, h1, hf, _ => by
    obtain rfl : e = 1 := by omega
    simp [pairLoop, trunc]
  | fuel + 1, e, result, mult, t, h1, hf, hc => by
    by_cases he : e > 1
    · have htail : trunc w (mult * (1 + t)) * ∑ i ∈ Finset.range (e / 2), trunc w (t * t) ^ i ≡
          mult * ∑ i ∈ Finset.range (2 * (e / 2)), t ^ i [MOD 2 ^ w] := by
        rw [geomSum_pair, ← mul_assoc]
        exact (Nat.mod_modEq _ _).mul (geomSum_modEq _ (Nat.mod_modEq _ _))
      rw [pairLoop, if_pos he, pairLoop_eq hw _ _ _ (by omega) (by rw [pow_succ] at hf; omega) (by omega)]
      split
      next hodd =>
        obtain ⟨h, rfl⟩ : ∃ h, e = 2 * h + 1 := ⟨e / 2, by omega⟩
        rw [show (2 * h + 1) / 2 = h by omega] at htail ⊢
        rw [powUnit_eq t hw (by omega), Nat.add_sub_cancel, Finset.sum_range_succ]
        have hhead : trunc w (result + mult * (t ^ (2 * h) % 2 ^ w)) ≡ result + mult * t ^ (2 * h) [MOD 2 ^ w] :=
          (Nat.mod_modEq _ _).trans (((Nat.mod_modEq _ _).mul_left mult).add_left result)
        calc _ ≡ result + mult * t ^ (2 * h) + mult * ∑ i ∈ Finset.range (2 * h), t ^ i [MOD 2 ^ w] := hhead.add htail
          _ = result + mult * (∑ i ∈ Finset.range (2 * h), t ^ i + t ^ (2 * h)) := by ring
      next heven =>
        rw [show 2 * (e / 2) = e by omega] at htail
        exact htail.add_left result
    · obtain rfl : e = 1 := by omega
      simp [pairLoop, trunc]

/-- R202 for the pairing strategy. -/
theorem geomPair_eq {w n : Nat} (r : Nat) (hw : 0 < w) (hn : n < 2 ^ countBits) :
    geomPair w r n = geomContract w r n := by
  unfold geomPair
  split
  next h => simp [h, geomContract]
  next h =>
    rw [pairLoop_eq hw 0 1 r (by omega) (by rw [pow_succ]; omega) hn, zero_add, one_mul]
    rfl

/-- R193: what is left of d without its trailing zeros is odd. -/
theorem ctz_spec : ∀ {fuel d : Nat}, 0 < d → d < 2 ^ fuel → ∃ o, o % 2 = 1 ∧ d = 2 ^ ctz fuel d * o
  | 0, d, h0, hd => by omega
  | fuel + 1, d, h0, hd => by
    by_cases hodd : d % 2 = 1
    · exact ⟨d, hodd, by simp [ctz, hodd]⟩
    · obtain ⟨o, ho, hdo⟩ := ctz_spec (d := d / 2) (fuel := fuel) (by omega) (by rw [pow_succ] at hd; omega)
      refine ⟨o, ho, ?_⟩
      rw [ctz, if_neg hodd, pow_add, pow_one, mul_assoc, ← hdo]
      omega

/-- R195 and R196: with P = r^n mod cf·M and r ≡ cf·o + 1, the numerator (P - 1) mod cf·M divides by cf exactly, and the
quotient is o times the series, mod M. -/
theorem geom_quotient {cf o M r n : Nat} (hcf : 0 < cf) (hM : 0 < M) (hr : cf * o + 1 ≡ r [MOD cf * M]) :
    (r ^ n % (cf * M) + cf * M - 1) % (cf * M) / cf = o * (∑ i ∈ Finset.range n, r ^ i) % M := by
  have hpos : 0 < cf * M := Nat.mul_pos hcf hM
  have hnum : r ^ n % (cf * M) + cf * M - 1 ≡ cf * (o * ∑ i ∈ Finset.range n, r ^ i) [MOD cf * M] := by
    apply Nat.ModEq.add_right_cancel' 1
    rw [Nat.sub_add_cancel (by omega)]
    calc r ^ n % (cf * M) + cf * M ≡ r ^ n [MOD cf * M] := by simp [Nat.ModEq]
      _ ≡ (cf * o + 1) ^ n [MOD cf * M] := (hr.pow n).symm
      _ = (∑ i ∈ Finset.range n, (cf * o + 1) ^ i) * (cf * o) + 1 := (geom_sum_mul_add _ n).symm
      _ ≡ (∑ i ∈ Finset.range n, r ^ i) * (cf * o) + 1 [MOD cf * M] := ((geomSum_modEq n hr).mul_right _).add_right 1
      _ = cf * (o * ∑ i ∈ Finset.range n, r ^ i) + 1 := by ring
  rw [hnum, Nat.mul_mod_mul_left, Nat.mul_div_cancel_left _ hcf]

/-- An odd value has no trailing zeros. -/
theorem ctz_of_odd {d : Nat} (fuel : Nat) (hd : d % 2 = 1) : ctz fuel d = 0 := by
  cases fuel with
  | zero => rfl
  | succ fuel => rw [ctz, if_pos hd]

/-- The d of R192 stands for r - 1, for every r ≠ 1: it is not 0, and d + 1 is r even modulo 2^w times the power of two in d.
At r = 0 it wraps to 2^w - 1, which is odd, so that power is 1. -/
theorem geomClosed_d_spec {w r d : Nat} (hw : 0 < w) (hr : r < 2 ^ w) (h1 : r ≠ 1) (hd : (r + 2 ^ w - 1) % 2 ^ w = d) :
    0 < d ∧ d < 2 ^ w ∧ d + 1 ≡ r [MOD 2 ^ ctz w d * 2 ^ w] := by
  have heven : 2 ^ w = 2 * 2 ^ (w - 1) := by rw [← pow_succ', Nat.sub_add_cancel hw]
  obtain rfl | hr0 := Nat.eq_zero_or_pos r
  · obtain rfl : 2 ^ w - 1 = d := by rw [← hd, zero_add, Nat.mod_eq_of_lt (by omega)]
    refine ⟨by omega, by omega, ?_⟩
    rw [ctz_of_odd w (by omega), pow_zero, one_mul, Nat.sub_add_cancel (by omega)]
    exact Nat.mod_self _
  · obtain rfl : r - 1 = d := by
      rw [← hd, show r + 2 ^ w - 1 = r - 1 + 2 ^ w by omega, Nat.add_mod_right, Nat.mod_eq_of_lt (by omega)]
    exact ⟨by omega, by omega, by rw [Nat.sub_add_cancel hr0]⟩

/-- R202 for the closed form. -/
theorem geomClosed_eq {w r n : Nat} (hw : 0 < w) (hw64 : w ≤ countBits) (hr : r < 2 ^ w) (hn : n < 2 ^ countBits) :
    geomClosed w r n = geomContract w r n := by
  unfold geomClosed
  split
  next h1 => simp [h1, geomContract, trunc]
  next h1 =>
    dsimp only
    generalize hdr : (r + 2 ^ w - 1) % 2 ^ w = d
    obtain ⟨hd0, hdw, hmod⟩ := geomClosed_d_spec hw hr h1 hdr
    obtain ⟨o, ho, hdo⟩ := ctz_spec hd0 hdw
    generalize ctz w d = k at hdo hmod ⊢
    subst hdo
    have hcf : 0 < 2 ^ k := by positivity
    rw [Nat.mul_div_cancel_left _ hcf, powmodDouble, powmodOver_mulmodWide r hn (by positivity),
      geom_quotient hcf (by positivity) hmod]
    calc o * (∑ i ∈ Finset.range n, r ^ i) % 2 ^ w * powUnit w o (2 ^ w - 1)
        ≡ o * (∑ i ∈ Finset.range n, r ^ i) * powUnit w o (2 ^ w - 1) [MOD 2 ^ w] := (Nat.mod_modEq _ _).mul_right _
      _ = o * powUnit w o (2 ^ w - 1) * ∑ i ∈ Finset.range n, r ^ i := mul_right_comm _ _ _
      _ ≡ 1 * ∑ i ∈ Finset.range n, r ^ i [MOD 2 ^ w] := (mul_powUnit_modEq_one hw hw64 ho).mul_right _
      _ = ∑ i ∈ Finset.range n, r ^ i := one_mul _

/-! ### What a command computes -/

/-- The contract of an operation (40_modmul.md R120, 41_pow.md R150, 42_powmod.md R170, 43_geomseries.md R190): what Compute
returns under either strategy (`computeNat_eq_contractNat`). -/
def contractNat (op : Op) (w a b m n : Nat) : Nat :=
  match op with
  | .mulmod => mulmod a b m
  | .pow => powContract w a n
  | .powmod => powmodContract a n m
  | .geom => geomContract w a n

/-- R107: Compute does not depend on the strategy. -/
theorem computeNat_eq_contractNat {op : Op} {w a m n : Nat} (strat : Strategy) (b : Nat) (hw : 0 < w)
    (hw64 : w ≤ countBits) (ha : a < 2 ^ w) (hm : m ≤ 2 ^ w) (hm0 : needsModulus op = true → 0 < m)
    (hn : n < 2 ^ countBits) : computeNat op strat w a b m n = contractNat op w a b m n := by
  cases op with
  | mulmod =>
    cases strat with
    | fast => rfl
    | portable => exact mulmodSerial_eq_mulmodWide b ha (hm0 rfl)
  | pow => exact powUnit_eq a hw hn
  | powmod =>
    have hwide := powmodOver_mulmodWide a hn (hm0 rfl)
    cases strat with
    | fast => exact hwide
    | portable => exact (powmodOver_mulmodSerial n ha (hm0 rfl) hm).trans hwide
  | geom =>
    cases strat with
    | fast => exact geomClosed_eq hw hw64 ha hn
    | portable => exact geomPair_eq a hw hn

theorem width_bits_pos (w : Width) : 0 < w.bits := by cases w <;> decide

theorem width_bits_le_countBits (w : Width) : w.bits ≤ countBits := by cases w <;> decide

/-- What a job of operation op and width w started on s computes. It mentions neither a strategy nor the build of s. -/
def resultOf (op : Op) (w : Width) (s : State) : Word64 :=
  BitVec.ofNat 64 (contractNat op w.bits (truncOperand w s.regA).toNat (truncOperand w s.regB).toNat
    (truncOperand w s.regM).toNat s.regN.toNat)

/-- A job that issue starts computes the contract on the operand registers (30_encoding.md R105, R107). -/
theorem computeJob_latchJob (f : Fields) (s : State)
    (hm : needsModulus f.op = true → truncOperand f.width s.regM ≠ 0) :
    computeJob (latchJob f s) = resultOf f.op f.width s := by
  have hm0 (h : needsModulus f.op = true) : 0 < (truncOperand f.width s.regM).toNat :=
    Nat.pos_of_ne_zero fun h0 => hm h (BitVec.eq_of_toNat_eq h0)
  exact congrArg (BitVec.ofNat 64) (computeNat_eq_contractNat _ _ (width_bits_pos _) (width_bits_le_countBits _)
    (truncOperand_lt _ _) (truncOperand_lt _ _).le hm0 s.regN.isLt)

/-- How an issued command ends: rejected for m = 0 with RES as it was, or completed with its result. -/
theorem engineTurn_issueCommand (f : Fields) (s : State) (hs : s.eng = .idle) :
    ((engineTurn (issueCommand f s)).res, (engineTurn (issueCommand f s)).status) =
      if needsModulus f.op = true ∧ truncOperand f.width s.regM = 0 then (s.res, s.status.cleared.reported .modZero)
      else (resultOf f.op f.width s, s.status.cleared.issued.completed) := by
  obtain ⟨j, hj, -⟩ | ⟨-, hneeds, hzero, hissue⟩ | ⟨-, hm, hissue⟩ := issueCommand_cases f s
  · rw [hs] at hj; cases hj
  · rw [hissue, engineTurn_idle _ ((errorReport_eng _ _).trans ((acceptWord_eng _ _).trans hs)), if_pos ⟨hneeds, hzero⟩]
    rfl
  · rw [hissue, engineTurn_busy _ _ (startJob_eng _ _), if_neg fun h => hm h.1 h.2, ← computeJob_latchJob f s hm]
    rfl

/-- Settles O29: how an issued command ends is a function of its operation, its width and the registers other than the
build. -/
theorem strategyAndBuildNeverChangeTheResult : Obligations.StrategyAndBuildNeverChangeTheResult := by
  intro i i' s t t' p' hop hwidth hs ht ht'
  rw [exec_eq] at ht ht'
  obtain rfl : issueCommand i.fields s = t := by injection ht
  obtain rfl : issueCommand i'.fields { s with params := p' } = t' := by injection ht'
  have hend := engineTurn_issueCommand i.fields s hs
  have hend' := engineTurn_issueCommand i'.fields { s with params := p' } hs
  rw [hop, hwidth] at hend'
  exact Prod.mk.inj (hend'.trans hend.symm)

end Sys2Proof.Machine
end

section
/-!
PROOFS. O40 and O39 (10_state.md R27, R28, R34, R37): the reset state meets the invariant and every step keeps it. The invariant
speaks of the build, CMD, STATUS and ENG alone, so each effect of a step is judged by what it does to these four.
-/

namespace Sys2Proof.Machine

/-- The invariant speaks of the build, CMD, STATUS and ENG alone. -/
theorem inv_congr {s t : State} (hs : s.Inv) (hparams : t.params = s.params) (hcmd : t.cmd = s.cmd)
    (hstatus : t.status = s.status) (heng : t.eng = s.eng) : t.Inv where
  busy_iff := by rw [hstatus, heng]; exact hs.busy_iff
  err_iff := by rw [hstatus]; exact hs.err_iff
  code_le := by rw [hstatus]; exact hs.code_le
  busy_quiet := by rw [hstatus]; exact hs.busy_quiet
  job_valid := by rw [hparams, heng]; exact hs.job_valid
  job_runs := by rw [hparams, hcmd, heng]; exact hs.job_runs

/-- An idle state has no job, so only its flags matter. -/
theorem inv_of_idle {s : State} (heng : s.eng = .idle) (hbusy : s.status.busy = false)
    (herr : s.status.err = true ↔ s.status.errcode ≠ 0) (hcode : s.status.errcode.toNat ≤ 2) : s.Inv where
  busy_iff := by simp [heng, hbusy]
  err_iff := herr
  code_le := hcode
  busy_quiet := by simp [hbusy]
  job_valid := by simp [heng]
  job_runs := by simp [heng]

theorem inv_busy_of_idle {s : State} (hs : s.Inv) (hidle : s.eng = .idle) : s.status.busy = false := by
  simpa [hidle] using hs.busy_iff

/-- Settles O39: nothing runs and no error is reported. -/
theorem resetMeetsTheInvariant : Obligations.ResetMeetsTheInvariant := fun _ =>
  inv_of_idle rfl rfl (by simp) (by simp)

theorem afterReset_inv (s : State) : (afterReset s).Inv :=
  inv_congr (resetMeetsTheInvariant s.params) rfl rfl rfl rfl

theorem dropCommand_inv {s : State} (hs : s.Inv) : (dropCommand s).Inv where
  busy_iff := hs.busy_iff
  err_iff := hs.err_iff
  code_le := hs.code_le
  busy_quiet := hs.busy_quiet
  job_valid := hs.job_valid
  job_runs := hs.job_runs

/-- A STATUS write clears ERR and ERRCODE together, and raises no flag. -/
theorem statusWrite_inv (v : Word32) {s : State} (hs : s.Inv) : (statusWrite v s).Inv where
  busy_iff := hs.busy_iff
  err_iff := by
    rw [statusWrite_status, status_writeOneClear_err, status_writeOneClear_errcode]
    cases v.getLsbD 2 with
    | false => simpa using hs.err_iff
    | true => simp
  code_le := by
    rw [statusWrite_status, status_writeOneClear_errcode]
    cases v.getLsbD 2 with
    | false => exact hs.code_le
    | true => exact Nat.zero_le 2
  busy_quiet hbusy := by
    obtain ⟨hdone, herr⟩ := hs.busy_quiet hbusy
    simp [hdone, herr]
  job_valid := hs.job_valid
  job_runs := hs.job_runs

/-- The two codes are the two allowed values that are not 0 (60_exceptions.md R230). -/
theorem errorCode_spec (c : ErrorCause) : errorCode c ≠ 0 ∧ (errorCode c).toNat ≤ 2 := by cases c <;> decide

/-- A rejected command leaves the engine idle and a report with its code. -/
theorem errorReport_inv (c : ErrorCause) (v : Word32) {s : State} (hs : s.Inv) (hidle : s.eng = .idle) :
    (errorReport c (acceptWord v s)).Inv := by
  obtain ⟨hne, hle⟩ := errorCode_spec c
  have hbusy := inv_busy_of_idle hs hidle
  exact inv_of_idle hidle hbusy (iff_of_true rfl hne) hle

theorem completeJob_inv (j : Job) {s : State} (hs : s.Inv) : (completeJob j s).Inv :=
  inv_of_idle rfl rfl hs.err_iff hs.code_le

theorem fields_wellFormed (i : Instr) : Fields.wellFormed i.fields = true := by cases i <;> decide

/-- The job an issue latches is one that issue can produce (10_state.md R34). -/
theorem latchJob_valid (i : Instr) (s : State)
    (hm : needsModulus i.fields.op = true → truncOperand i.fields.width s.regM ≠ 0) :
    (latchJob i.fields s).Valid s.params :=
  ⟨truncOperand_lt _ _, truncOperand_lt _ _, truncOperand_lt _ _, hm, i.fields.strat, fields_wellFormed i, rfl⟩

/-- An issue starts the command whose word it leaves in CMD, over cleared flags (10_state.md R27). -/
theorem startJob_inv (i : Instr) (s : State)
    (hm : needsModulus i.fields.op = true → truncOperand i.fields.width s.regM ≠ 0) :
    (startJob (latchJob i.fields s) (acceptWord (encode i) s)).Inv where
  busy_iff := by simp
  err_iff := by simp
  code_le := by simp
  busy_quiet := by simp
  job_valid := by
    rintro j ⟨⟩
    exact latchJob_valid i s hm
  job_runs := by
    rintro j ⟨⟩
    exact ⟨i, decodeWord_encode i, rfl, rfl, rfl⟩

theorem respond_inv (a : Response) {s : State} (hs : s.Inv) : (respond a s).Inv := inv_congr hs rfl rfl rfl rfl

/-- Each effect of a turn keeps the invariant. -/
theorem effect_inv {s u : State} {t : Option Turn} (h : Effect s t u) (hs : s.Inv) : u.Inv := by
  cases h with
  | answer x a => exact respond_inv a hs
  | nothing => exact hs
  | drop => exact respond_inv _ (dropCommand_inv hs)
  | illegal v e hr hidle => exact respond_inv _ (errorReport_inv _ v hs hidle)
  | modZero v i hr hidle => exact respond_inv _ (errorReport_inv _ (encode i) hs hidle)
  | issue v i hr hidle hd hm => exact respond_inv _ (startJob_inv i s hm)
  | status v => exact respond_inv _ (statusWrite_inv v hs)
  | plain r v =>
    exact respond_inv _ (inv_congr hs (plainWrite_params r v s) (plainWrite_cmd r v s) (plainWrite_status r v s)
      (plainWrite_eng r v s))
  | complete t j => exact completeJob_inv j hs
  | resetAssert => exact inv_congr hs rfl rfl rfl rfl
  | resetRelease => exact afterReset_inv s

/-- Settles O40: taking the turn off and freeing the working registers touch nothing the invariant speaks of, and the
turn's effect keeps it. -/
theorem everyStepKeepsTheInvariant : Obligations.EveryStepKeepsTheInvariant := by
  intro s t hs hstep
  obtain ⟨u, heffect, rfl⟩ := step_next hstep
  have hu : u.Inv := effect_inv heffect (inv_congr hs rfl rfl rfl rfl)
  exact inv_congr hu rfl rfl rfl rfl

end Sys2Proof.Machine
end

section
/-!
PROOFS. O28 (10_state.md R23, R24): how an issued command ends is a function of the operands that its operation reads, at its
width.
-/

namespace Sys2Proof.Machine

/-- The operations with a modulus are the two that read M (30_encoding.md R105). -/
theorem needsModulus_iff (op : Op) : needsModulus op = true ↔ op = .mulmod ∨ op = .powmod := by
  cases op <;> decide

/-- Registers that agree mod 2^W give the same operand. -/
theorem truncOperand_congr {w : Width} {x y : Word64} (h : x.toNat % 2 ^ w.bits = y.toNat % 2 ^ w.bits) :
    truncOperand w x = truncOperand w y :=
  BitVec.eq_of_toNat_eq (by rw [truncOperand_toNat, truncOperand_toNat, h])

/-- The contract of an operation reads a, and b, m and n only where the operation does (10_state.md R23). -/
theorem contractNat_congr {op : Op} (w a : Nat) {b b' m m' n n' : Nat} (hb : op = .mulmod → b' = b)
    (hm : op = .mulmod ∨ op = .powmod → m' = m) (hn : op ≠ .mulmod → n' = n) :
    contractNat op w a b' m' n' = contractNat op w a b m n := by
  cases op with
  | mulmod => rw [hb rfl, hm (.inl rfl)]; rfl
  | pow => rw [hn (by decide)]; rfl
  | powmod => rw [hm (.inr rfl), hn (by decide)]; rfl
  | geom => rw [hn (by decide)]; rfl

/-- Settles O28: both commands pass or fail the check of the modulus together, and their jobs compute the same contract. -/
theorem unreadOperandsHaveNoEffect : Obligations.UnreadOperandsHaveNoEffect := by
  intro i s s' t t' hidle hidle' _ hstatus hres hA hB hM hN ht ht'
  rw [exec_eq] at ht ht'
  obtain rfl : issueCommand i.fields s = t := by injection ht
  obtain rfl : issueCommand i.fields s' = t' := by injection ht'
  have hread : resultOf i.fields.op i.fields.width s' = resultOf i.fields.op i.fields.width s := by
    unfold resultOf
    rw [truncOperand_congr hA, contractNat_congr (op := i.fields.op)]
    · exact fun h => congrArg BitVec.toNat (truncOperand_congr (hB h))
    · exact fun h => congrArg BitVec.toNat (truncOperand_congr (hM h))
    · exact fun h => congrArg BitVec.toNat (hN h)
  have hcheck : (needsModulus i.fields.op = true ∧ truncOperand i.fields.width s'.regM = 0) ↔
      (needsModulus i.fields.op = true ∧ truncOperand i.fields.width s.regM = 0) :=
    and_congr_right fun h => by rw [truncOperand_congr (hM ((needsModulus_iff _).1 h))]
  have hend := engineTurn_issueCommand i.fields s hidle
  have hend' := engineTurn_issueCommand i.fields s' hidle'
  simp only [hread, hcheck, hstatus, hres] at hend'
  exact Prod.mk.inj (hend'.trans hend.symm)

end Sys2Proof.Machine
end

section
/-!
PROOFS. O35 and O41 (10_state.md R22, R30): RES is written by Complete and by the end of reset alone, and the build by no step.
-/

namespace Sys2Proof.Machine

/-- What each effect of a turn does to RES. -/
theorem effect_res {s u : State} {t : Option Turn} (h : Effect s t u) :
    u.res = s.res ∨ (∃ j, s.eng = .busy j ∧ u.eng = .idle ∧ u.res = computeJob j) ∨
      (s.inReset = true ∧ u.res = 0 ∧ t = some .resetRelease) := by
  cases h with
  | complete t j hr hbusy => exact .inr (.inl ⟨j, hbusy, rfl, rfl⟩)
  | resetRelease hr => exact .inr (.inr ⟨hr, rfl, rfl⟩)
  | plain r v => exact .inl (plainWrite_res r v s)
  | _ => exact .inl rfl

theorem effect_params {s u : State} {t : Option Turn} (h : Effect s t u) : u.params = s.params := by
  cases h with
  | plain r v => exact plainWrite_params r v s
  | _ => rfl

/-- Settles O35: by what the turn's effect does to RES. -/
theorem resultIsWrittenOnlyByCompletion : Obligations.ResultIsWrittenOnlyByCompletion := by
  intro s t hstep
  obtain ⟨u, heffect, rfl⟩ := step_next hstep
  obtain hkept | hcomplete | ⟨hreset, hzero, hturn⟩ := effect_res heffect
  · exact .inl hkept
  · exact .inr (.inl hcomplete)
  · exact .inr (.inr ⟨hreset, hzero, List.head?_eq_some_iff.1 hturn⟩)

/-- Settles O41: CAPS is a function of the build, which no effect of a turn changes, and a write of CAPS stores nothing. -/
theorem capsIsConstant : Obligations.CapsIsConstant := by
  refine ⟨fun s => readResponse_regOffset s .caps, fun s v => writeAccess_regOffset .caps v s, fun s t hstep => ?_⟩
  obtain ⟨u, heffect, rfl⟩ := step_next hstep
  exact (refreshWork_params u).trans ((effect_params heffect).trans (setTurns_params _ s))

end Sys2Proof.Machine
end

section
/-!
PROOFS. O46, O48, O49 and O52 (10_state.md R21, R28, R29, R37): what the registers of the window read after a write of them and
after reset.
-/

namespace Sys2Proof.Machine

/-- The halves of the operand registers (10_state.md R21). -/
def operandHalves : List Reg := [.aLo, .aHi, .bLo, .bHi, .mLo, .mHi, .nLo, .nHi]

/-- Where the operand halves stand (20_memory.md R61). -/
theorem exists_operandHalf {off : Nat} (h : off ∈ [0x10, 0x14, 0x18, 0x1C, 0x20, 0x24, 0x28, 0x2C]) :
    ∃ r ∈ operandHalves, regOffset r = off :=
  List.mem_map.1 (show off ∈ operandHalves.map regOffset from h)

theorem operandHalf_ne {r q : Reg} (h : r ∈ operandHalves) (hq : q ∉ operandHalves) : r ≠ q := by
  rintro rfl
  exact hq h

/-- An operand half reads back what is written to it. -/
theorem regRead_plainWrite_operandHalf {r : Reg} (h : r ∈ operandHalves) (v : Word32) (s : State) :
    regRead (plainWrite r v s) r = v := by
  cases r with
  | aLo | bLo | mLo | nLo => exact loHalf_setLoHalf _ v
  | aHi | bHi | mHi | nHi => exact hiHalf_setHiHalf _ v
  | cmd | status | irqen | caps | resLo | resHi => exact absurd h (by decide)

/-- After reset every register but CAPS reads 0 (10_state.md R37). -/
theorem regRead_resetOf (p : Params) {r : Reg} (h : r ≠ .caps) : regRead (State.resetOf p) r = 0 := by
  cases r with
  | caps => exact absurd rfl h
  | cmd => rfl
  | status => simp [regRead, statusWord]
  | irqen => simp [regRead, irqenWord]
  | aLo | aHi | bLo | bHi | mLo | mHi | nLo | nHi | resLo | resHi => simp [regRead]

/-- The end of reset leaves what the reset state of the build reads. -/
@[simp] theorem regRead_afterReset (s : State) (r : Reg) :
    regRead (afterReset s) r = regRead (State.resetOf s.params) r := by
  cases r <;> rfl

/-- Settles O46: a write of an operand half stores it and touches no other register and no job. -/
theorem operandHalvesReadBack : Obligations.OperandHalvesReadBack := by
  refine ⟨fun s off v hoff => ?_, fun p off hoff => ?_⟩
  · obtain ⟨r, hr, rfl⟩ := exists_operandHalf hoff
    have hwrite : writeAccess (regOffset r) 4 v s = .next (respond .written (plainWrite r v s)) := by
      rw [writeAccess_regOffset, registerWrite_plain (operandHalf_ne hr (by decide)) (operandHalf_ne hr (by decide)),
        mapNext_next]
    refine ⟨_, hwrite, ?_, fun off' hne => readResponse_congr r (fun q hq => ?_) off' hne 4, plainWrite_eng r v s⟩
    · rw [readResponse_regOffset, regRead_respond, regRead_plainWrite_operandHalf hr]
    · rw [regRead_respond, regRead_plainWrite_ne hq]
  · obtain ⟨r, hr, rfl⟩ := exists_operandHalf hoff
    rw [readResponse_regOffset, regRead_resetOf p (operandHalf_ne hr (by decide))]

/-- Settles O48: the write of STATUS is `statusWrite`, flag by flag. -/
theorem statusWriteClearsTheWrittenOnes : Obligations.StatusWriteClearsTheWrittenOnes := by
  intro s v
  have hwrite : writeAccess 0x04 4 v s = .next (respond .written (statusWrite v s)) := writeAccess_regOffset .status v s
  rw [hwrite]
  simp [respond, statusWrite, Status.writeOneClear, Bool.and_comm]

/-- The IRQEN word is its three bits over zeros (10_state.md R29). -/
theorem irqenWord_bits (x : BitVec 3) : irqenWord ⟨x.getLsbD 0, x.getLsbD 1, x.getLsbD 2⟩ = 0#29 ++ x := by
  decide +revert

/-- A write of v stores v[2:0], and IRQEN reads as these over zeros (10_state.md R29). -/
theorem irqenWord_irqenOfWord (v : Word32) : irqenWord (irqenOfWord v) = 0#29 ++ v.extractLsb' 0 3 := by
  have hbits : irqenOfWord v =
      ⟨(v.extractLsb' 0 3).getLsbD 0, (v.extractLsb' 0 3).getLsbD 1, (v.extractLsb' 0 3).getLsbD 2⟩ := by
    simp [irqenOfWord]
  rw [hbits, irqenWord_bits]

/-- Settles O49: IRQEN stores what `irqenOfWord` takes from v, and reads it back. -/
theorem irqenStoresThreeBits : Obligations.IrqenStoresThreeBits := fun s v =>
  ⟨respond .written (plainWrite .irqen v s), writeAccess_regOffset .irqen v s, rfl,
    (readResponse_regOffset _ .irqen).trans (congrArg Response.data (irqenWord_irqenOfWord v))⟩

/-- Where every register but CAPS reads 0, so does every aligned offset but that of CAPS: nothing else stands in the
window (20_memory.md R66). -/
theorem readResponse_eq_zero {s : State} (h : ∀ r, r ≠ .caps → regRead s r = 0) {off : Nat} (haligned : off % 4 = 0)
    (hne : off ≠ regOffset .caps) : readResponse s off 4 = .data 0 := by
  have hword : windowWord s off = 0 := by
    unfold windowWord
    cases hr : regAt off with
    | none => rfl
    | some r => exact h r (by rintro rfl; exact hne (regOffset_of_regAt hr).symm)
  simp [readResponse, badAccess, haligned, hword]

/-- A step whose turn is the release of reset. -/
theorem step_resetRelease {s : State} {rest : List Turn} (hr : s.inReset = true)
    (h : s.turns = .resetRelease :: rest) : step s = .next (refreshWork (afterReset (setTurns rest s))) := by
  simp [step, nextTurn, h, takeTurn, hr, turnInReset]

/-- Settles O52: the release of reset leaves the reset state of the build, with the turns that follow. -/
theorem resetReleaseLeavesResetValues : Obligations.ResetReleaseLeavesResetValues := by
  intro s rest hr hturns
  refine ⟨_, step_resetRelease hr hturns, fun off haligned hne => readResponse_eq_zero (fun r hcaps => ?_) haligned hne,
    readResponse_regOffset _ .caps, rfl, rfl, rfl, rfl, rfl⟩
  rw [regRead_refreshWork, regRead_afterReset, regRead_resetOf _ hcaps]

end Sys2Proof.Machine
end

section
/-!
PROOFS. O34 and O37 (20_memory.md R70, R72, R73): a running job ends by Complete or at the end of reset alone, and its result
stays readable until the next CMD write.
-/

namespace Sys2Proof.Machine

/-- How an effect of a turn can leave a Busy engine: with the same job, with that job completed, or with reset ended. -/
theorem effect_of_busy {s u : State} {t : Option Turn} {j : Job} (h : Effect s t u) (hbusy : s.eng = .busy j) :
    u.eng = .busy j ∨ (s.inReset = false ∧ u = completeJob j s) ∨ (s.inReset = true ∧ t = some .resetRelease) := by
  cases h with
  | illegal v e hr hidle | modZero v i hr hidle | issue v i hr hidle => simp [hbusy] at hidle
  | plain r v => exact .inl ((plainWrite_eng r v s).trans hbusy)
  | complete t j' hr hbusy' =>
    obtain rfl : j = j' := by simpa [hbusy] using hbusy'
    exact .inr (.inl ⟨hr, rfl⟩)
  | resetRelease hr => exact .inr (.inr ⟨hr, rfl⟩)
  | answer | nothing | drop | status | resetAssert => exact .inl hbusy

/-- Settles O34: by what the turn's effect does to a Busy engine. -/
theorem latchedJobIsNeverChanged : Obligations.LatchedJobIsNeverChanged := by
  intro s t j hbusy hstep
  obtain ⟨u, heffect, rfl⟩ := step_next hstep
  obtain hkept | ⟨hr, rfl⟩ | ⟨hr, hturn⟩ := effect_of_busy heffect hbusy
  · exact .inl hkept
  · exact .inr (.inl ⟨hr, rfl, rfl, rfl⟩)
  · exact .inr (.inr ⟨hr, List.head?_eq_some_iff.1 hturn⟩)

/-- An idle engine is started by a CMD write alone (30_encoding.md R105). -/
theorem effect_eng_of_idle {s u : State} {t : Option Turn} (h : Effect s t u) (hidle : s.eng = .idle)
    (hcmd : ∀ v, t ≠ some (writeTurn s.params .cmd v)) : u.eng = .idle := by
  cases h with
  | drop v | illegal v | modZero v | issue v => exact absurd rfl (hcmd v)
  | plain r v => exact (plainWrite_eng r v s).trans hidle
  | complete | resetRelease => rfl
  | answer | nothing | status | resetAssert => exact hidle

/-- Reset is asserted by its own turn alone. -/
theorem effect_inReset {s u : State} {t : Option Turn} (h : Effect s t u) (hr : s.inReset = false)
    (hturn : t ≠ some .resetAssert) : u.inReset = false := by
  cases h with
  | resetAssert => exact absurd rfl hturn
  | resetRelease => rfl
  | plain r v => exact (plainWrite_inReset r v s).trans hr
  | _ => exact hr

/-- No effect of a turn touches the turns still to come. -/
theorem effect_turns {s u : State} {t : Option Turn} (h : Effect s t u) : u.turns = s.turns := by
  cases h with
  | plain r v => exact plainWrite_turns r v s
  | _ => rfl

theorem step_turns {s t : State} (h : step s = .next t) : t.turns = s.turns.tail := by
  obtain ⟨u, heffect, rfl⟩ := step_next h
  exact effect_turns heffect

/-- The job runs, or RES holds its result (20_memory.md R72); reset is not asserted. -/
def Delivers (j : Job) (s : State) : Prop :=
  s.inReset = false ∧ (s.eng = .busy j ∨ (s.eng = .idle ∧ s.res = computeJob j))

/-- A turn that is neither a CMD write nor the assertion of reset takes neither the job nor its result away. -/
theorem effect_delivers {s u : State} {t : Option Turn} {j : Job} (h : Effect s t u) (hs : Delivers j s)
    (hreset : t ≠ some .resetAssert) (hcmd : ∀ v, t ≠ some (writeTurn s.params .cmd v)) : Delivers j u := by
  obtain ⟨hr, hbusy | ⟨hidle, hres⟩⟩ := hs
  · refine ⟨effect_inReset h hr hreset, ?_⟩
    obtain hkept | ⟨_, rfl⟩ | ⟨hr', _⟩ := effect_of_busy h hbusy
    · exact .inl hkept
    · exact .inr ⟨rfl, rfl⟩
    · simp [hr] at hr'
  · refine ⟨effect_inReset h hr hreset, .inr ⟨effect_eng_of_idle h hidle hcmd, ?_⟩⟩
    obtain hkept | ⟨j', hbusy, _⟩ | ⟨hr', _⟩ := effect_res h
    · exact hkept.trans hres
    · simp [hidle] at hbusy
    · simp [hr] at hr'

theorem step_delivers {s t : State} {j : Job} (h : step s = .next t) (hs : Delivers j s)
    (hreset : s.turns.head? ≠ some .resetAssert) (hcmd : ∀ v, s.turns.head? ≠ some (writeTurn s.params .cmd v)) :
    Delivers j t := by
  obtain ⟨u, heffect, rfl⟩ := step_next h
  have hu : Delivers j u := effect_delivers heffect hs hreset hcmd
  exact hu

theorem step_params {s t : State} (h : step s = .next t) : t.params = s.params := by
  obtain ⟨_, _, hparams⟩ := capsIsConstant
  exact hparams s t h

/-- The induction over a run: what is asked of the first k turns is asked of the first turn and of the turns after it. -/
theorem stepsTo_delivers {j : Job} : ∀ {k : Nat} {s t : State}, StepsTo k s t → s.Inv → Delivers j s →
    Turn.resetAssert ∉ s.turns.take k → (∀ v, writeTurn s.params .cmd v ∉ s.turns.take k) → t.Inv ∧ Delivers j t
  | 0, s, t, hrun, hinv, hs, _, _ => by
    obtain rfl : s = t := hrun
    exact ⟨hinv, hs⟩
  | k + 1, s, t, ⟨u, hstep, hrun⟩, hinv, hs, hreset, hcmd => by
    have hfirst {x : Turn} (hx : x ∉ s.turns.take (k + 1)) : s.turns.head? ≠ some x := by
      intro hhead
      obtain ⟨rest, hturns⟩ := List.head?_eq_some_iff.1 hhead
      simp [hturns] at hx
    have hlater {x : Turn} (hx : x ∉ s.turns.take (k + 1)) : x ∉ u.turns.take k := by
      rw [step_turns hstep]
      cases hturns : s.turns <;> simp_all
    have hparams := step_params hstep
    exact stepsTo_delivers hrun (everyStepKeepsTheInvariant s u hinv hstep)
      (step_delivers hstep hs (hfirst hreset) fun v => hfirst (hcmd v))
      (hlater hreset) fun v => hparams ▸ hlater (hcmd v)

/-- Settles O37: the run keeps the job or its result, and BUSY = 0 leaves only the result (10_state.md R34). -/
theorem handshakeReturnsTheResult : Obligations.HandshakeReturnsTheResult := by
  intro k s t j hinv hr hbusy hrun hreset hcmd hdone
  obtain ⟨hinv', _, hbusy' | ⟨_, hres⟩⟩ := stepsTo_delivers hrun hinv ⟨hr, .inl hbusy⟩ hreset hcmd
  · simp [hinv'.busy_iff.2 (by simp [hbusy'])] at hdone
  · rw [← hres]
    exact ⟨readResponse_regOffset t .resLo, readResponse_regOffset t .resHi⟩

end Sys2Proof.Machine
end

section
/-!
PROOFS. O42, O43, O45 and O57 (20_memory.md R60, R63, R65, R67, R68, R70): a host transaction is the access at its offset in the
window, and outside the window nothing.
-/

namespace Sys2Proof.Machine

theorem windowOffset_eq_none {p : Params} {addr : Nat} :
    windowOffset p addr = none ↔ addr < p.base ∨ p.base + 0x100 ≤ addr := by
  unfold windowOffset
  split
  · simp only [reduceCtorEq, false_iff]; omega
  · simp only [true_iff]; omega

theorem badAccess_iff {off size : Nat} : badAccess off size = true ↔ size ≠ 4 ∨ off % 4 ≠ 0 := by
  simp [badAccess]

/-- A bad access reads nothing (20_memory.md R63). -/
theorem readResponse_of_badAccess {off size : Nat} (s : State) (h : badAccess off size = true) :
    readResponse s off size = .busError := if_pos h

/-- A bad access writes nothing (20_memory.md R63). -/
theorem writeAccess_of_badAccess {off size : Nat} (v : Word32) (s : State) (h : badAccess off size = true) :
    writeAccess off size v s = .next (respond .busError s) := if_pos h

/-- A host read in the window is answered with what stands at its offset (20_memory.md R60, R67). -/
theorem hostAccess_read_base (s : State) {off : Nat} (size : Nat) (h : off < 0x100) :
    hostAccess (.read (s.params.base + off) size) s = .next (respond (readResponse s off size) s) := by
  simp only [hostAccess, windowOffset_base _ _ h]

/-- A host write in the window is the write at its offset (20_memory.md R60, R68). -/
theorem hostAccess_write_base (s : State) {off : Nat} (size : Nat) (v : Word32) (h : off < 0x100) :
    hostAccess (.write (s.params.base + off) size v) s = writeAccess off size v s := by
  simp only [hostAccess, windowOffset_base _ _ h]

/-- A step whose turn is a host transaction (20_memory.md R70). -/
theorem step_host {s u : State} {x : Transaction} {rest : List Turn} (hr : s.inReset = false)
    (hturns : s.turns = .host x :: rest) (h : hostAccess x (setTurns rest s) = .next u) :
    step s = .next (refreshWork u) := by
  simp [step, nextTurn, hturns, takeTurn, hr, h]

/-- Settles O57: every transaction is `hostAccess`, which in the window is the access at its offset. -/
theorem transactionsReachTheWindow : Obligations.TransactionsReachTheWindow :=
  ⟨fun _ _ _ _ hr hturns h => step_host hr hturns h, fun s _ size hoff => hostAccess_read_base s size hoff,
    fun s _ size v hoff => hostAccess_write_base s size v hoff, fun _ => rfl, fun _ _ => rfl⟩

/-- Settles O42: a bad access is answered before anything is read or written. -/
theorem wrongSizeOrAlignmentIsABusError : Obligations.WrongSizeOrAlignmentIsABusError := by
  intro s off size v hoff hbad
  rw [← badAccess_iff] at hbad
  constructor
  · rw [hostAccess_read_base s size hoff, readResponse_of_badAccess s hbad]
    rfl
  · rw [hostAccess_write_base s size v hoff, writeAccess_of_badAccess v s hbad]
    rfl

/-- Settles O43: such an address has no offset in the window. -/
theorem outsideTheWindowNothingHappens : Obligations.OutsideTheWindowNothingHappens := by
  intro s x addr houtside haccess
  have hnone := windowOffset_eq_none.2 houtside
  obtain ⟨size, rfl⟩ | ⟨size, v, rfl⟩ := haccess
  · simp only [hostAccess, hnone]; rfl
  · simp only [hostAccess, hnone]; rfl

/-- Settles O45: in the window or not, a read only answers. -/
theorem readsHaveNoSideEffect : Obligations.ReadsHaveNoSideEffect := by
  refine ⟨fun s off size hoff => hostAccess_read_base s size hoff, fun s addr size => ?_⟩
  cases hoff : windowOffset s.params addr with
  | none => exact ⟨.silent, by simp only [hostAccess, hoff]; rfl⟩
  | some off => exact ⟨readResponse s off size, by simp only [hostAccess, hoff]; rfl⟩

end Sys2Proof.Machine
end

section
/-!
PROOFS. O5, O44, O47 and O51 (20_memory.md R62, R66, R67, R68): what the window reads, word by word and byte by byte, and the
offsets that ignore a write.
-/

namespace Sys2Proof.Machine

/-- Where no register stands, the offset is none of the register map's (20_memory.md R61). -/
theorem ne_regOffset_of_regAt {off : Nat} (h : regAt off = none) (r : Reg) : off ≠ regOffset r := by
  rintro rfl
  simp at h

theorem readResponse_of_regAt_none {off size : Nat} (s : State) (hgood : badAccess off size = false)
    (h : regAt off = none) : readResponse s off size = .data 0 := by
  simp [readResponse, windowWord, hgood, h]

/-- Settles O44: register by register where one stands, and 0 elsewhere. -/
theorem readReturnsTheRegister : Obligations.ReadReturnsTheRegister := by
  intro s off size
  cases hbad : badAccess off size with
  | true => rw [readResponse_of_badAccess s hbad, if_pos (badAccess_iff.1 hbad)]
  | false =>
    obtain rfl := size_of_badAccess_false hbad
    cases hreg : regAt off with
    | some r =>
      obtain rfl := regOffset_of_regAt hreg
      rw [readResponse_regOffset]
      cases r <;> rfl
    | none =>
      have hne : ∀ r, off ≠ regOffset r := ne_regOffset_of_regAt hreg
      have hgood : ¬(4 ≠ 4 ∨ off % 4 ≠ 0) := by rw [← badAccess_iff, hbad]; decide
      rw [readResponse_of_regAt_none s hbad hreg, if_neg hgood]
      have hmap : off ∉ allRegs.map regOffset := by simpa using fun r _ => (hne r).symm
      simp only [allRegs, List.map_cons, List.map_nil, regOffset, List.mem_cons, List.not_mem_nil, not_or] at hmap
      simp [hmap]

/-- A 32-bit write where no register stands is ignored (20_memory.md R66). -/
theorem writeAccess_of_regAt_none {off : Nat} (v : Word32) (s : State) (hgood : badAccess off 4 = false)
    (h : regAt off = none) : writeAccess off 4 v s = .next (respond .written s) := by
  simp [writeAccess, registerWrite, hgood, h]

/-- Settles O47: CAPS, RES_LO and RES_HI store nothing, and from 0x38 on no register stands. -/
theorem readOnlyAndReservedOffsetsIgnoreWrites : Obligations.ReadOnlyAndReservedOffsetsIgnoreWrites := by
  intro s off v haligned hoff
  obtain rfl | rfl | rfl | ⟨hlow, -⟩ := hoff
  · exact ⟨writeAccess_regOffset .caps v s, fun h => absurd h (by decide)⟩
  · exact ⟨writeAccess_regOffset .resLo v s, fun h => absurd h (by decide)⟩
  · exact ⟨writeAccess_regOffset .resHi v s, fun h => absurd h (by decide)⟩
  · have hgood : badAccess off 4 = false := by simp [badAccess, haligned]
    have hnone := regAt_reserved hlow
    exact ⟨writeAccess_of_regAt_none v s hgood hnone, fun _ => readResponse_of_regAt_none s hgood hnone⟩

/-- The four byte lanes of a word make the word (20_memory.md R62). -/
theorem wordOfBytes_byteOfWord (v : Word32) :
    wordOfBytes (byteOfWord v 0) (byteOfWord v 1) (byteOfWord v 2) (byteOfWord v 3) = v := by
  simp only [wordOfBytes, byteOfWord]
  rw [BitVec.extractLsb'_append_extractLsb'_eq_extractLsb' (show 8 * 3 = 8 * 2 + 8 from rfl),
    BitVec.extractLsb'_append_extractLsb'_eq_extractLsb' (show 8 * 2 = 8 * 1 + 8 from rfl),
    BitVec.extractLsb'_append_extractLsb'_eq_extractLsb' (show 8 * 1 = 8 * 0 + 8 from rfl)]
  exact BitVec.extractLsb'_eq_self

/-- Settles O5: the lanes make the command's word again, and it decodes to the command. -/
theorem encodedBytesDecode : Obligations.EncodedBytesDecode := by
  intro i rest
  simp only [encodeBytes, List.cons_append, List.nil_append, decodeBytes, wordOfBytes_byteOfWord, decodeWord_encode]

/-- Byte j of the register at an aligned offset (20_memory.md R62). -/
theorem windowByte_add (s : State) {off j : Nat} (haligned : off % 4 = 0) (hj : j < 4) :
    windowByte s (off + j) = byteOfWord (windowWord s off) j := by
  have hlane : (off + j) % 4 = j := by omega
  simp only [windowByte, hlane, Nat.add_sub_cancel, byteOfWord]

/-- Byte j of a register (20_memory.md R62). -/
theorem windowByte_regOffset_add (s : State) (r : Reg) {j : Nat} (hj : j < 4) :
    windowByte s (regOffset r + j) = byteOfWord (regRead s r) j := by
  have haligned : regOffset r % 4 = 0 := by cases r <;> decide
  rw [windowByte_add s haligned hj, windowWord_regOffset]

/-- The two halves make the register (10_state.md R21). -/
theorem hiHalf_append_loHalf (x : Word64) : hiHalf x ++ loHalf x = x := BitVec.extractLsb'_append_extractLsb'

/-- Two words joined are their eight bytes joined, the highest first: both sides shift the same bytes to the same places. -/
theorem wordOfBytes_append (b0 b1 b2 b3 b4 b5 b6 b7 : Byte) :
    wordOfBytes b4 b5 b6 b7 ++ wordOfBytes b0 b1 b2 b3 = b7 ++ b6 ++ b5 ++ b4 ++ b3 ++ b2 ++ b1 ++ b0 := by
  apply BitVec.eq_of_toNat_eq
  simp only [wordOfBytes, BitVec.toNat_append, Nat.shiftLeft_or_distrib, ← Nat.shiftLeft_add, Nat.lor_assoc]

/-- Settles O51: A is its two halves, each the word of its four byte lanes. -/
theorem windowBytesAreLittleEndian : Obligations.WindowBytesAreLittleEndian := by
  refine ⟨fun s off j haligned hj => windowByte_add s haligned hj, fun s => ?_⟩
  have hlo {j : Nat} (hj : j < 4) : byteOfWord (loHalf s.regA) j = windowByte s (0x10 + j) :=
    (windowByte_regOffset_add s .aLo hj).symm
  have hhi {j : Nat} (hj : j < 4) : byteOfWord (hiHalf s.regA) j = windowByte s (0x14 + j) :=
    (windowByte_regOffset_add s .aHi hj).symm
  rw [← hiHalf_append_loHalf s.regA, ← wordOfBytes_byteOfWord (hiHalf s.regA), ← wordOfBytes_byteOfWord (loHalf s.regA),
    wordOfBytes_append]
  simp [hlo, hhi]

end Sys2Proof.Machine
end

section
/-!
PROOFS. O1, O2, O3 and O56 (30_encoding.md R90, R94, R97, R100): a command's fields fix every bit of its word, so the decoder and
the encoder are inverse to each other on all words, and the disassembler tells the fourteen words from all others.
-/

namespace Sys2Proof.Machine

/-! ### The fields of a command word -/

theorem reservedSet_iff (v : Word32) :
    reservedSet v = true ↔ v.getLsbD 3 = true ∨ v.extractLsb' 5 3 ≠ 0 ∨ v.extractLsb' 9 23 ≠ 0 := by
  simp only [reservedSet, Bool.or_eq_true, bne_iff_ne, ne_eq, BitVec.ofNat_eq_ofNat]
  tauto

/-- A word is its six fields, reserved ones included (30_encoding.md R90). -/
theorem word_eq_append_fields (v : Word32) :
    v.extractLsb' 9 23 ++ v.extractLsb' 8 1 ++ v.extractLsb' 5 3 ++ v.extractLsb' 4 1 ++ v.extractLsb' 3 1 ++ opField v = v := by
  rw [opField, BitVec.extractLsb'_append_extractLsb'_eq_extractLsb' (show 9 = 8 + 1 from rfl),
    BitVec.extractLsb'_append_extractLsb'_eq_extractLsb' (show 8 = 5 + 3 from rfl),
    BitVec.extractLsb'_append_extractLsb'_eq_extractLsb' (show 5 = 4 + 1 from rfl),
    BitVec.extractLsb'_append_extractLsb'_eq_extractLsb' (show 4 = 3 + 1 from rfl),
    BitVec.extractLsb'_append_extractLsb'_eq_extractLsb' (show 3 = 0 + 3 from rfl)]
  exact BitVec.extractLsb'_eq_self

/-- A field of one bit is that bit. -/
theorem extractLsb'_one (v : Word32) (k : Nat) : v.extractLsb' k 1 = BitVec.ofBool (v.getLsbD k) := by
  ext i hi
  obtain rfl : i = 0 := by omega
  simp

theorem widthCode_widthField (v : Word32) : widthCode (widthField v) = v.extractLsb' 4 1 := by
  rw [extractLsb'_one, widthField]
  cases v.getLsbD 4 <;> rfl

theorem stratCode_stratField (v : Word32) : stratCode (stratField v) = v.extractLsb' 8 1 := by
  rw [extractLsb'_one, stratField]
  cases v.getLsbD 8 <;> rfl

theorem opCode_of_opOfField {b : BitVec 3} {op : Op} (h : opOfField b = some op) : opCode op = b := by
  revert b op
  decide

theorem fields_of_instrOfFields {op : Op} {w : Width} {strat : Strategy} {i : Instr}
    (h : instrOfFields op w strat = some i) : i.fields = ⟨op, w, strat⟩ := by
  unfold instrOfFields at h
  split at h <;> cases h <;> rfl

/-- Without reserved bits, a word is made of its OP, W64 and STRAT. -/
theorem commandWord_of_fields {v : Word32} {op : Op} (hres : reservedSet v = false)
    (hop : opOfField (opField v) = some op) : commandWord ⟨op, widthField v, stratField v⟩ = v := by
  have hclear := (reservedSet_iff v).not.1 (by simp [hres])
  push Not at hclear
  obtain ⟨h3, h5, h9⟩ := hclear
  have h3' : v.extractLsb' 3 1 = 0 := by
    rw [extractLsb'_one, Bool.eq_false_iff.2 h3]
    rfl
  conv_rhs => rw [← word_eq_append_fields v, h9, h5, h3']
  rw [commandWord, widthCode_widthField, stratCode_stratField, opCode_of_opOfField hop]
  rfl

/-! ### The decoder -/

/-- How the decoder comes to answer a command (30_encoding.md R96). -/
theorem decodeWord_eq_ok {v : Word32} {i : Instr} (h : decodeWord v = .ok i) :
    reservedSet v = false ∧ ∃ op, opOfField (opField v) = some op ∧
      instrOfFields op (widthField v) (stratField v) = some i := by
  unfold decodeWord at h
  split at h
  next => cases h
  next hres =>
    split at h
    next => cases h
    next op hop =>
      split at h
      next => cases h
      next i' hi =>
        cases h
        exact ⟨by simpa using hres, op, hop, hi⟩

/-- The encoder gives the one word that decodes to a command (30_encoding.md R97). -/
theorem decodeWord_eq_ok_iff (v : Word32) (i : Instr) : decodeWord v = .ok i ↔ v = encode i := by
  constructor
  · intro h
    obtain ⟨hres, op, hop, hi⟩ := decodeWord_eq_ok h
    rw [encode, fields_of_instrOfFields hi, commandWord_of_fields hres hop]
  · rintro rfl
    exact decodeWord_encode i

/-- Settles O2: the fields of a word that decodes fix every bit of it. -/
theorem decodeInvertsEncodeOnEveryWord : Obligations.DecodeInvertsEncodeOnEveryWord :=
  ⟨decodeWord_eq_ok_iff, by decide⟩

/-- Settles O1: each listed word is the encoding of its row's command. -/
theorem listedWordsDecode : Obligations.ListedWordsDecode := by
  obtain ⟨hiff, hwords⟩ := decodeInvertsEncodeOnEveryWord
  simp only [Obligations.ListedWordsDecode, hiff, hwords, and_self]

/-- Settles O3: the decoder looks at the reserved bits first, and a command's only word is its encoding. -/
theorem reservedBitsMakeAWordIllegal : Obligations.ReservedBitsMakeAWordIllegal := by
  constructor
  · intro v hset
    exact ⟨.reservedBits, if_pos ((reservedSet_iff v).2 hset)⟩
  · intro v v' i h h'
    rw [decodeWord_eq_ok_iff] at h h'
    rw [h, h']

/-- A word that is no command's encoding is illegal (30_encoding.md R98). -/
theorem decodeWord_illegal {v : Word32} (h : ∀ i, v ≠ encode i) : ∃ e, decodeWord v = .illegal e := by
  cases hd : decodeWord v with
  | ok i => exact absurd ((decodeWord_eq_ok_iff v i).1 hd) (h i)
  | illegal e => exact ⟨e, rfl⟩

/-! ### The disassembler -/

/-- The sixteen digits (30_encoding.md R100; log 18). -/
theorem hexDigit_eq (b : BitVec 4) :
    ['0', '1', '2', '3', '4', '5', '6', '7', '8', '9', 'A', 'B', 'C', 'D', 'E', 'F'][b.toNat]? = some (hexDigit b) := by
  revert b
  decide

/-- Digit k from the right is that of bits [4k+3:4k]. -/
theorem hexWord_getElem? (v : Word32) {k : Nat} (hk : k < 8) :
    (hexWord v).toList[7 - k]? = some (hexDigit (v.extractLsb' (4 * k) 4)) := by
  have hplace : [7, 6, 5, 4, 3, 2, 1, 0][7 - k]? = some k := by decide +revert
  rw [hexWord, String.toList_ofList, List.getElem?_map, hplace]
  rfl

/-- Settles O56: a word is the encoding of a command or illegal. -/
theorem disassemblerPrintsMnemonics : Obligations.DisassemblerPrintsMnemonics := by
  refine ⟨fun i => ?_, rfl, rfl, rfl, rfl, rfl, rfl, rfl, rfl, rfl, rfl, rfl, rfl, rfl, rfl, fun v h => ?_,
    fun v => ⟨?_, fun k hk => ?_⟩⟩
  · rw [disassemble, decodeWord_encode]
  · obtain ⟨e, he⟩ := decodeWord_illegal h
    rw [disassemble, he]
  · rw [hexWord, String.toList_ofList, List.length_map]
    rfl
  · rw [hexWord_getElem? v hk, hexDigit_eq]

end Sys2Proof.Machine
end

section
/-!
PROOFS. O19 (30_encoding.md R107): Compute returns the contract of every job that issue can produce, as the 64-bit value of RES.
-/

namespace Sys2Proof.Machine

/-- Every contract is a remainder: by m, which is below 2^w, or by 2^w. -/
theorem contractNat_lt {op : Op} {w m : Nat} (a b n : Nat) (hm : m < 2 ^ w) (hm0 : needsModulus op = true → 0 < m) :
    contractNat op w a b m n < 2 ^ w := by
  have hpos : 0 < 2 ^ w := by positivity
  cases op with
  | mulmod => exact (Nat.mod_lt _ (hm0 rfl)).trans hm
  | powmod => exact (Nat.mod_lt _ (hm0 rfl)).trans hm
  | pow => exact Nat.mod_lt _ hpos
  | geom => exact Nat.mod_lt _ hpos

/-- The contract of a job's operation on the job's operands. -/
def Job.contract (j : Job) : Nat := contractNat j.op j.width.bits j.a.toNat j.b.toNat j.m.toNat j.n.toNat

/-- A valid job computes its contract, which fits its width (30_encoding.md R107). -/
theorem computeJob_toNat {p : Params} {j : Job} (hj : j.Valid p) :
    (computeJob j).toNat = j.contract ∧ j.contract < 2 ^ j.width.bits := by
  obtain ⟨ha, -, hm, hne, -⟩ := hj
  have hm0 (h : needsModulus j.op = true) : 0 < j.m.toNat :=
    Nat.pos_of_ne_zero fun h0 => hne h (BitVec.eq_of_toNat_eq h0)
  have hlt : j.contract < 2 ^ j.width.bits := contractNat_lt _ _ _ hm hm0
  have hwide : 2 ^ j.width.bits ≤ 2 ^ 64 := Nat.pow_le_pow_right two_pos (width_bits_le_countBits _)
  have hcompute : computeNat j.op j.strat j.width.bits j.a.toNat j.b.toNat j.m.toNat j.n.toNat = j.contract :=
    computeNat_eq_contractNat _ _ (width_bits_pos _) (width_bits_le_countBits _) ha hm.le hm0 j.n.isLt
  refine ⟨?_, hlt⟩
  rw [computeJob, hcompute, BitVec.toNat_ofNat, Nat.mod_eq_of_lt (hlt.trans_le hwide)]

/-- Settles O19: operation by operation, the contract of the job. -/
theorem computeReturnsTheContract : Obligations.ComputeReturnsTheContract := by
  intro p j hj
  obtain ⟨hcompute, hlt⟩ := computeJob_toNat hj
  rw [hcompute]
  refine ⟨fun h => ?_, fun h => ?_, fun h => ?_, fun h => ?_, hlt⟩ <;>
  · rw [Job.contract, h]
    rfl

end Sys2Proof.Machine
end

section
/-!
PROOFS. O25, O27 and O30 (30_encoding.md R98, R105, R108): what a CMD write does, and that it changes CMD, STATUS and ENG alone.
-/

namespace Sys2Proof.Machine

/-- An issue changes CMD, STATUS and ENG alone (30_encoding.md R108). -/
theorem issueCommand_frame (f : Fields) (s : State) :
    ∃ c st e, issueCommand f s = { s with cmd := c, status := st, eng := e } := by
  obtain ⟨_, _, h⟩ | ⟨_, _, _, h⟩ | ⟨_, _, h⟩ := issueCommand_cases f s <;> exact ⟨_, _, _, h⟩

theorem issueCommand_of_busy {s : State} (f : Fields) (h : s.eng ≠ .idle) : issueCommand f s = dropCommand s := by
  obtain ⟨_, _, hdrop⟩ | ⟨hidle, _⟩ | ⟨hidle, _⟩ := issueCommand_cases f s
  · exact hdrop
  · exact absurd hidle h
  · exact absurd hidle h

/-- An idle core stores the word, and leaves OVR (30_encoding.md R105). -/
theorem issueCommand_of_idle {s : State} (f : Fields) (h : s.eng = .idle) :
    (issueCommand f s).cmd = commandWord f ∧ (issueCommand f s).status.ovr = s.status.ovr := by
  obtain ⟨_, hbusy, _⟩ | ⟨_, _, _, hissue⟩ | ⟨_, _, hissue⟩ := issueCommand_cases f s
  · simp [h] at hbusy
  · simp [hissue]
  · simp [hissue]

/-- OVR rises at a command while Busy alone (60_exceptions.md R233). -/
theorem issueCommand_ovr (f : Fields) (s : State) :
    (issueCommand f s).status.ovr = (s.status.ovr || decide (s.eng ≠ .idle)) := by
  by_cases h : s.eng = .idle
  · obtain ⟨_, hovr⟩ := issueCommand_of_idle f h
    simp [hovr, h]
  · simp [issueCommand_of_busy f h, h]

/-- States whose registers from IRQEN on read the same have the same bytes from offset 8 on (20_memory.md R61, R62). -/
theorem windowByte_congr {s t : State} (h : ∀ r, r ≠ .cmd → r ≠ .status → regRead t r = regRead s r) {k : Nat}
    (hk : 8 ≤ k) : windowByte t k = windowByte s k := by
  have hword : windowWord t (k - k % 4) = windowWord s (k - k % 4) := by
    unfold windowWord
    cases hr : regAt (k - k % 4) with
    | none => rfl
    | some r =>
      have hoff := regOffset_of_regAt hr
      refine h r ?_ ?_ <;>
      · rintro rfl
        simp only [regOffset] at hoff
        omega
  rw [windowByte, hword, windowByte]

/-- A change of CMD, STATUS and ENG alone shows in no other register. -/
theorem regRead_command_frame (s : State) (c : Word32) (st : Status) (e : Engine) {r : Reg} (hcmd : r ≠ .cmd)
    (hstatus : r ≠ .status) : regRead { s with cmd := c, status := st, eng := e } r = regRead s r := by
  cases r <;> first | contradiction | rfl

/-- Settles O27: the frame of an issue, and what it does to OVR, CMD and ENG. -/
theorem commandsChangeOnlyCmdStatusAndEngine : Obligations.CommandsChangeOnlyCmdStatusAndEngine := by
  intro i s t ht
  rw [exec_eq] at ht
  injection ht with hissue
  have hovr := issueCommand_ovr i.fields s
  have hbusy (h : s.eng ≠ .idle) :
      (issueCommand i.fields s).cmd = s.cmd ∧ (issueCommand i.fields s).eng = s.eng := by
    rw [issueCommand_of_busy i.fields h]
    exact ⟨rfl, rfl⟩
  have hidle (h : s.eng = .idle) : (issueCommand i.fields s).cmd = encode i := (issueCommand_of_idle i.fields h).1
  obtain ⟨c, st, e, hframe⟩ := issueCommand_frame i.fields s
  rw [hframe] at hissue hovr hbusy hidle
  subst hissue
  exact ⟨rfl, rfl, rfl, rfl, rfl, rfl, rfl, hovr, hbusy, hidle, rfl, rfl, rfl, rfl,
    fun k hk => windowByte_congr (fun r => regRead_command_frame s c st e) hk⟩

/-- Settles O25: such a word is illegal, and its rejection is the report of ILLEGAL_CMD over the stored word. -/
theorem illegalCommandIsReported : Obligations.IllegalCommandIsReported := by
  intro v s hv hidle
  obtain ⟨j, hbusy, _⟩ | ⟨_, _, hreport⟩ | ⟨_, i, hd, _⟩ := commandWrite_cases v s
  · simp [hidle] at hbusy
  · rw [hreport]
    rfl
  · exact absurd ((decodeWord_eq_ok_iff v i).1 hd) (hv i)

/-- A CMD write of a command's word is the command, Busy or Idle. -/
theorem commandWrite_of_decodeWord {v : Word32} {i : Instr} (s : State) (hd : decodeWord v = .ok i) :
    commandWrite v s = exec i s := by
  obtain ⟨j, hbusy, hdrop⟩ | ⟨_, ⟨e, he⟩, _⟩ | ⟨_, i', hd', hexec⟩ := commandWrite_cases v s
  · rw [hdrop, exec_eq, issueCommand_of_busy i.fields (by simp [hbusy])]
  · simp [hd] at he
  · obtain rfl : i = i' := by simpa [hd] using hd'
    exact hexec

/-- A step whose turn is a CMD write; CMD stands at BASE (20_memory.md R61). -/
theorem step_cmdWrite {s : State} {v : Word32} {rest : List Turn} (hr : s.inReset = false)
    (h : s.turns = .host (.write s.params.base 4 v) :: rest) :
    step s = mapNext (fun t => refreshWork (respond .written t)) (commandWrite v (setTurns rest s)) :=
  step_write_reg (r := .cmd) hr h

/-- A step on a state made ready by `withFetchWord` is a CMD write of the word placed. -/
theorem step_withFetchWord (s : State) (v : Word32) :
    step (s.withFetchWord 32 v.toNat) =
      mapNext (fun t => refreshWork (respond .written t)) (commandWrite v { s with inReset := false }) := by
  have hturns : (s.withFetchWord 32 v.toNat).turns = writeTurn s.params .cmd v :: s.turns := by
    simp [State.withFetchWord, Nat.mod_eq_of_lt v.isLt]
  exact step_cmdWrite rfl hturns

/-- Settles O30: the step is the CMD write, and the word placed or written decides which. -/
theorem stepRunsTheDecodedCommand : Obligations.StepRunsTheDecodedCommand := by
  refine ⟨fun s v rest hr h => step_cmdWrite hr h, fun s v rest hr h hidle hv => ?_, fun s v i rest hr h hd => ?_,
    fun s i => ?_⟩
  · rw [step_cmdWrite hr h, illegalCommandIsReported v (setTurns rest s) hv hidle]
    rfl
  · rw [step_cmdWrite hr h, commandWrite_of_decodeWord _ hd]
    rfl
  · rw [step_withFetchWord, commandWrite_of_decodeWord _ (decodeWord_encode i)]

end Sys2Proof.Machine
end

section
/-!
PROOFS. O31, O32 and O33 (30_encoding.md R105, R106): Complete, that a Busy engine comes to it, and its race with a CMD write.
-/

namespace Sys2Proof.Machine

/-- A step whose turn is the Busy engine's is Complete (30_encoding.md R106). -/
theorem step_complete {s : State} {j : Job} {rest : List Turn} (hr : s.inReset = false) (hbusy : s.eng = .busy j)
    (h : s.turns = .engine :: rest) : step s = .next (refreshWork (completeJob j (setTurns rest s))) := by
  rw [step_engine hr h, engineTurn_busy _ j ((setTurns_eng rest s).trans hbusy)]

/-- Settles O31: the engine's turn is Complete. -/
theorem completeWritesTheResult : Obligations.CompleteWritesTheResult :=
  fun _ _ _ hr hbusy h => step_complete hr hbusy h

/-- With no turn left a Busy engine completes (log 3). -/
theorem step_quiet_complete {s : State} {j : Job} (hr : s.inReset = false) (hbusy : s.eng = .busy j)
    (h : s.turns = []) : step s = .next (refreshWork (completeJob j s)) := by
  simp [step, nextTurn, h, quietTurn, hr, hbusy]

/-- The flags and the result that Complete leaves (30_encoding.md R106). -/
def Completed (j : Job) (s : State) : Prop :=
  s.eng = .idle ∧ s.res = computeJob j ∧ s.status.busy = false ∧ s.status.done = true

theorem completed_completeJob (j : Job) (s : State) : Completed j (refreshWork (completeJob j s)) :=
  ⟨rfl, rfl, rfl, rfl⟩

/-- The induction over the turns to come: each leaves the job running or completes it, and with none left it completes. -/
theorem exists_stepsTo_completed {j : Job} : ∀ {turns : List Turn} {s : State}, s.turns = turns → s.inReset = false →
    s.eng = .busy j → Turn.resetAssert ∉ turns → ∃ k t, k ≤ turns.length + 1 ∧ StepsTo k s t ∧ Completed j t
  | [], s, hturns, hr, hbusy, _ =>
    ⟨1, _, le_rfl, stepsTo_one (step_quiet_complete hr hbusy hturns), completed_completeJob j s⟩
  | x :: rest, s, hturns, hr, hbusy, hreset => by
    obtain ⟨hx, hrest⟩ := not_or.1 (List.mem_cons.not.1 hreset)
    obtain ⟨u, heffect, hstep⟩ := step_effect s
    rw [hturns, List.tail_cons, List.head?_cons] at heffect
    obtain hkept | ⟨_, rfl⟩ | ⟨hr', _⟩ := effect_of_busy heffect hbusy
    · have hr' : u.inReset = false := effect_inReset heffect hr (by simpa using Ne.symm hx)
      obtain ⟨k, t, hk, hrun, ht⟩ :=
        exists_stepsTo_completed (turns := rest) (s := refreshWork u) (effect_turns heffect) hr' hkept hrest
      exact ⟨k + 1, t, Nat.succ_le_succ hk, stepsTo_succ hstep hrun, ht⟩
    · exact ⟨1, _, by simp, stepsTo_one hstep, completed_completeJob j _⟩
    · simp [hr] at hr'

/-- Settles O32, by induction on the turns to come. -/
theorem busyEngineCompletes : Obligations.BusyEngineCompletes :=
  fun _ _ hr hbusy hreset => exists_stepsTo_completed rfl hr hbusy hreset

theorem commandWrite_of_busy {s : State} {j : Job} (v : Word32) (h : s.eng = .busy j) :
    commandWrite v s = .next (dropCommand s) := by
  obtain ⟨_, _, hdrop⟩ | ⟨hidle, _⟩ | ⟨hidle, _⟩ := commandWrite_cases v s
  · exact hdrop
  · simp [h] at hidle
  · simp [h] at hidle

/-- A CMD write while Idle stores the word, legal or not, and leaves RES, OVR and the turns (30_encoding.md R98, R105, R108). -/
theorem commandWrite_of_idle {s : State} (v : Word32) (h : s.eng = .idle) :
    ∃ t, commandWrite v s = .next t ∧ t.cmd = v ∧ t.res = s.res ∧ t.status.ovr = s.status.ovr ∧ t.turns = s.turns := by
  obtain ⟨_, hbusy, _⟩ | ⟨_, _, hreport⟩ | ⟨_, i, hd, hexec⟩ := commandWrite_cases v s
  · simp [h] at hbusy
  · exact ⟨_, hreport, rfl, rfl, rfl, rfl⟩
  · obtain rfl := (decodeWord_eq_ok_iff v i).1 hd
    obtain ⟨hcmd, hovr⟩ := issueCommand_of_idle i.fields h
    obtain ⟨c, st, e, hframe⟩ := issueCommand_frame i.fields s
    exact ⟨_, hexec.trans (exec_eq i s), hcmd, by rw [hframe], hovr, by rw [hframe]⟩

/-- A step whose turn is a CMD write while Busy sets OVR (60_exceptions.md R233). -/
theorem step_cmdWrite_of_busy {s : State} {j : Job} {v : Word32} {rest : List Turn} (hr : s.inReset = false)
    (hbusy : s.eng = .busy j) (h : s.turns = .host (.write s.params.base 4 v) :: rest) :
    step s = .next (refreshWork (respond .written (dropCommand (setTurns rest s)))) := by
  rw [step_cmdWrite hr h, commandWrite_of_busy v ((setTurns_eng rest s).trans hbusy), mapNext_next]

/-- A CMD write taken before Complete is dropped, and the job's result arrives. -/
theorem stepsTo_drop_complete {s : State} {j : Job} {v : Word32} {rest : List Turn} (hr : s.inReset = false)
    (hbusy : s.eng = .busy j) (h : s.turns = .host (.write s.params.base 4 v) :: .engine :: rest) :
    ∃ t, StepsTo 2 s t ∧ t.res = computeJob j ∧ t.cmd = s.cmd ∧ t.status.ovr = true ∧ t.eng = .idle ∧
      t.turns = rest := by
  have hdrop := step_cmdWrite_of_busy hr hbusy h
  have hcomplete := step_complete (s := refreshWork (respond .written (dropCommand (setTurns (.engine :: rest) s))))
    hr hbusy rfl
  exact ⟨_, stepsTo_two hdrop hcomplete, by simp⟩

/-- A CMD write taken after Complete is stored, and the job's result stands. -/
theorem stepsTo_complete_cmdWrite {s : State} {j : Job} {v : Word32} {rest : List Turn} (hr : s.inReset = false)
    (hbusy : s.eng = .busy j) (h : s.turns = .engine :: .host (.write s.params.base 4 v) :: rest) :
    ∃ t, StepsTo 2 s t ∧ t.res = computeJob j ∧ t.cmd = v ∧ t.status.ovr = s.status.ovr ∧ t.turns = rest := by
  have hcomplete := step_complete hr hbusy h
  set u := refreshWork (completeJob j (setTurns (.host (.write s.params.base 4 v) :: rest) s))
  obtain ⟨t, hwrite, hcmd, hres, hovr, hturns⟩ := commandWrite_of_idle (s := setTurns rest u) v rfl
  have hissue : step u = _ := step_cmdWrite hr rfl
  rw [hwrite, mapNext_next] at hissue
  exact ⟨_, stepsTo_two hcomplete hissue, hres, hcmd, hovr, hturns⟩

/-- Settles O33: before Complete the word meets a Busy engine, after it an idle one. -/
theorem commandRacesWithCompletion : Obligations.CommandRacesWithCompletion :=
  fun _ _ _ _ hr hbusy => ⟨stepsTo_drop_complete hr hbusy rfl, stepsTo_complete_cmdWrite hr hbusy rfl⟩

end Sys2Proof.Machine
end

section
/-!
PROOFS. O54 and O55 (30_encoding.md R102): the script lines `li64` and `clrstat`.
-/

namespace Sys2Proof.Machine

/-- A step whose turn is a write of an operand half. -/
theorem step_write_operandHalf {s : State} {r : Reg} {v : Word32} {rest : List Turn} (hhalf : r ∈ operandHalves)
    (hr : s.inReset = false) (h : s.turns = writeTurn s.params r v :: rest) :
    step s = .next (refreshWork (respond .written (plainWrite r v (setTurns rest s)))) := by
  rw [step_write_reg hr h, registerWrite_plain (operandHalf_ne hhalf (by decide)) (operandHalf_ne hhalf (by decide)),
    mapNext_next]

/-- Such a step stores the word in its half and touches no other register, no job and no later turn. -/
theorem exists_step_write_operandHalf {s : State} {r : Reg} {v : Word32} {rest : List Turn} (hhalf : r ∈ operandHalves)
    (hr : s.inReset = false) (h : s.turns = writeTurn s.params r v :: rest) :
    ∃ t, step s = .next t ∧ regRead t r = v ∧ (∀ q, q ≠ r → regRead t q = regRead s q) ∧ t.inReset = false ∧
      t.turns = rest ∧ t.eng = s.eng ∧ t.params = s.params := by
  refine ⟨_, step_write_operandHalf hhalf hr h, ?_, fun q hq => ?_, ?_, ?_, ?_, ?_⟩
  · rw [regRead_refreshWork, regRead_respond, regRead_plainWrite_operandHalf hhalf]
  · rw [regRead_refreshWork, regRead_respond, regRead_plainWrite_ne hq, regRead_setTurns]
  all_goals simp [hr]

/-- Both halves of a register other than RES are operand halves. -/
theorem halves_mem_operandHalves {x : Reg64} (h : x ≠ .res) :
    lowReg x ∈ operandHalves ∧ highReg x ∈ operandHalves := by
  cases x with
  | res => exact absurd rfl h
  | a | b | m | n => decide

theorem lowReg_ne_highReg (x : Reg64) : lowReg x ≠ highReg x := by cases x <;> decide

/-- Settles O54: two writes, each of its half alone. -/
theorem loadImmediateLoadsBothHalves : Obligations.LoadImmediateLoadsBothHalves := by
  intro s x v rest hx hr hturns
  obtain ⟨hlow, hhigh⟩ := halves_mem_operandHalves hx
  obtain ⟨t, hstep, hread, hkeep, hr', hturns', heng, hparams⟩ := exists_step_write_operandHalf hlow hr hturns
  rw [← hparams] at hturns'
  obtain ⟨u, hstep', hread', hkeep', _, hrest, heng', _⟩ := exists_step_write_operandHalf hhigh hr' hturns'
  refine ⟨u, stepsTo_two hstep hstep', hrest, heng'.trans heng, ?_, ?_, fun off hnlow hnhigh => ?_⟩
  · rw [readResponse_regOffset, hkeep' _ (lowReg_ne_highReg x), hread]
    rfl
  · rw [readResponse_regOffset, hread']
    rfl
  · rw [readResponse_congr _ hkeep' off hnhigh, readResponse_congr _ hkeep off hnlow]

/-- Ones in bits 1, 2 and 3 of a STATUS write clear every report (10_state.md R28). -/
theorem writeOneClear_reports (st : Status) :
    st.writeOneClear 0x0000000E = { busy := st.busy, done := false, err := false, errcode := 0, ovr := false } := by
  simp [Status.writeOneClear]

/-- Settles O55: the line is one STATUS write. -/
theorem clearStatusClearsEveryReport : Obligations.ClearStatusClearsEveryReport := by
  intro s rest hr hturns
  refine ⟨_, step_write_reg hr hturns, ?_, ?_, ?_, ?_, ?_⟩
  · rfl
  · exact writeOneClear_reports s.status
  all_goals rfl

end Sys2Proof.Machine
end

section
/-!
PROOFS. What a command does on an idle core from its issue to Complete, for all fourteen at once (30_encoding.md R105, R106):
whole states, so that each unit's commands follow by naming the unit's fields and contract.
-/

namespace Sys2Proof.Machine

/-- An idle core with the modulus the command needs starts the latched job (30_encoding.md R105). -/
theorem exec_of_idle {i : Instr} {s : State} (hidle : s.eng = .idle)
    (hm : needsModulus i.fields.op = true → truncOperand i.fields.width s.regM ≠ 0) :
    exec i s = .next (startJob (latchJob i.fields s) (acceptWord (encode i) s)) := by
  rw [exec_eq]
  obtain ⟨j, hbusy, -⟩ | ⟨-, hneeds, hzero, -⟩ | ⟨-, -, hissue⟩ := issueCommand_cases i.fields s
  · simp [hidle] at hbusy
  · exact absurd hzero (hm hneeds)
  · rw [hissue]
    rfl

/-- A command that chooses its strategy runs fast when it asks for it and the build has the width's datapath
(30_encoding.md R101). -/
theorem effectiveStrategy_of_ne_pow {op : Op} (hop : op ≠ .pow) (p : Params) (w : Width) (asked : Strategy) :
    effectiveStrategy p op w asked =
      if asked = .fast ∧ (if w.bits = 32 then p.fast32 else p.fast64) = true then .fast else .portable := by
  cases op with
  | pow => exact absurd rfl hop
  | mulmod | powmod | geom => cases asked <;> cases w <;> simp [effectiveStrategy, Width.bits]

/-- The result of a job as a function of the operand registers mod 2^W (30_encoding.md R95, R107). -/
theorem resultOf_eq (op : Op) (w : Width) (s : State) :
    resultOf op w s = BitVec.ofNat 64 (contractNat op w.bits (s.regA.toNat % 2 ^ w.bits) (s.regB.toNat % 2 ^ w.bits)
      (s.regM.toNat % 2 ^ w.bits) s.regN.toNat) := by
  simp only [resultOf, truncOperand_toNat]

/-- A command on an idle core with the modulus it needs: the state its issue leaves, the job it latches, and the state
Complete then leaves, with the contract's value in RES (30_encoding.md R95, R101, R105, R106). -/
theorem exec_issues_and_completes {i : Instr} {op : Op} {w : Width} {asked : Strategy} {s : State}
    (hf : i.fields = ⟨op, w, asked⟩) (hidle : s.eng = .idle)
    (hm : needsModulus op = true → s.regM.toNat % 2 ^ w.bits ≠ 0) :
    ∃ (t : State) (j : Job), exec i s = .next t ∧
      t = { s with
        cmd := encode i
        eng := .busy j
        status := { busy := true, done := false, err := false, errcode := 0, ovr := s.status.ovr } } ∧
      j.op = op ∧ j.width.bits = w.bits ∧ j.strat = effectiveStrategy s.params op w asked ∧
      j.a.toNat = s.regA.toNat % 2 ^ w.bits ∧ j.b.toNat = s.regB.toNat % 2 ^ w.bits ∧
      j.m.toNat = s.regM.toNat % 2 ^ w.bits ∧ j.n = s.regN ∧
      engineTurn t = { s with
        cmd := encode i
        res := BitVec.ofNat 64 (contractNat op w.bits (s.regA.toNat % 2 ^ w.bits) (s.regB.toNat % 2 ^ w.bits)
          (s.regM.toNat % 2 ^ w.bits) s.regN.toNat)
        status := { busy := false, done := true, err := false, errcode := 0, ovr := s.status.ovr } } := by
  have hm0 : needsModulus op = true → truncOperand w s.regM ≠ 0 :=
    fun hneeds => mt (truncOperand_eq_zero w s.regM).1 (hm hneeds)
  have hissue : exec i s = .next (startJob (latchJob ⟨op, w, asked⟩ s) (acceptWord (encode i) s)) := by
    rw [exec_of_idle hidle (by rwa [hf]), hf]
  refine ⟨_, _, hissue, rfl, rfl, rfl, rfl, truncOperand_toNat w _, truncOperand_toNat w _, truncOperand_toNat w _, rfl, ?_⟩
  rw [engineTurn_busy _ _ (startJob_eng _ _), ← resultOf_eq, ← computeJob_latchJob ⟨op, w, asked⟩ s hm0]
  rw [hidle]
  rfl

end Sys2Proof.Machine
end

section
/-!
PROOFS. O6, O7, O8, O9 and O20 (40_modmul.md): the modular_multiplier's add, reduction and loop, the equality of its strategies,
and its four commands.
-/

namespace Sys2Proof.Machine

/-- Settles O6: the result is a remainder by m, and no intermediate value exceeds m. -/
theorem boundedAddIsModularAdd : Obligations.BoundedAddIsModularAdd := by
  intro W x y m hx hy hm hmW
  have hadd : addmod x y m = (x + y) % m := addmod_eq hx hy
  refine ⟨hadd, ?_, ?_, ?_, ?_⟩
  · rw [hadd]
    exact Nat.mod_lt _ hm
  all_goals omega

/-- Settles O7: every case is b mod m, which is b below m and b - m below 2m. -/
theorem operandIsFullyReduced : Obligations.OperandIsFullyReduced := by
  intro b m _
  rw [reduceOperand_eq_mod]
  refine ⟨Nat.mod_eq_of_lt, fun hle hlt => ?_, rfl⟩
  rw [Nat.mod_eq_sub_mod hle, Nat.mod_eq_of_lt (by omega)]

/-- Settles O8: both running values are remainders by m. -/
theorem serialLoopKeepsItsInvariant : Obligations.SerialLoopKeepsItsInvariant := by
  intro a b m i hm
  rw [serialLoop_eq a b m i hm]
  exact ⟨rfl, Nat.mod_lt _ hm, Nat.mod_lt _ hm⟩

/-- Settles O9: after W iterations the loop has read every bit of a. -/
theorem mulmodStrategiesAgree : Obligations.MulmodStrategiesAgree :=
  fun _ _ b _ _ ha _ hm _ => ⟨mulmodSerial_eq_mulmodWide b ha hm, rfl⟩

/-- Settles O20: each row of the table gives the fields of its command, and the contract of MULMOD is a * b mod m. -/
theorem mulmodCommandsIssueAndComplete : Obligations.MulmodCommandsIssueAndComplete := by
  intro i W asked s hrow hidle hm
  obtain ⟨w, hfields, rfl⟩ : ∃ w, i.fields = ⟨.mulmod, w, asked⟩ ∧ w.bits = W := by
    simp only [List.mem_cons, Prod.mk.injEq, List.not_mem_nil, or_false] at hrow
    obtain ⟨rfl, rfl, rfl⟩ | ⟨rfl, rfl, rfl⟩ | ⟨rfl, rfl, rfl⟩ | ⟨rfl, rfl, rfl⟩ := hrow <;> exact ⟨_, rfl, rfl⟩
  have hrun := exec_issues_and_completes hfields hidle fun _ => hm
  rw [effectiveStrategy_of_ne_pow (by decide)] at hrun
  exact hrun

end Sys2Proof.Machine
end

section
/-!
PROOFS. O10, O11, O12 and O21 (41_pow.md): the power_engine computes the power mod 2^W, so the count 2^W - 1 inverts an odd value
and takes an even one to 0, and its two commands issue whatever M holds.
-/

namespace Sys2Proof.Machine

/-- The two numbers of bits are those of the model's two widths. -/
theorem exists_width_bits_eq {W : Nat} (hW : W = 32 ∨ W = 64) : ∃ w : Width, w.bits = W := by
  obtain rfl | rfl := hW
  · exact ⟨.w32, rfl⟩
  · exact ⟨.w64, rfl⟩

/-- The count 2^W - 1 of R152 and R153 is one that the loop of R151 covers. -/
theorem two_pow_bits_sub_one_lt (w : Width) : 2 ^ w.bits - 1 < 2 ^ countBits :=
  (Nat.sub_one_lt (by positivity)).trans_le (Nat.pow_le_pow_right two_pos (width_bits_le_countBits w))

/-- An even value to a power of at least w is a multiple of 2^w. -/
theorem two_pow_dvd_pow_of_even {base w n : Nat} (heven : base % 2 = 0) (hn : w ≤ n) : 2 ^ w ∣ base ^ n :=
  (pow_dvd_pow_of_dvd (Nat.dvd_of_mod_eq_zero heven) w).trans (pow_dvd_pow base hn)

/-- Settles O10: the loop's 64 iterations cover every count, and base^0 = 1 is below 2^W. -/
theorem powUnitIsThePower : Obligations.PowUnitIsThePower := by
  intro W base n hW _ hn
  obtain ⟨w, rfl⟩ := exists_width_bits_eq hW
  have hpow {k : Nat} (hk : k ≤ 2 ^ 64 - 1) : powUnit w.bits base k = base ^ k % 2 ^ w.bits :=
    powUnit_eq base (width_bits_pos w) (Nat.lt_of_le_pred (by positivity) hk)
  refine ⟨hpow hn, ?_⟩
  rw [hpow (Nat.zero_le _), pow_zero, Nat.mod_eq_of_lt (Nat.one_lt_two_pow (width_bits_pos w).ne')]

/-- Settles O11, by Euler's theorem (`mul_powUnit_modEq_one`): the residue 1 is below 2^W. -/
theorem powInvertsOddValues : Obligations.PowInvertsOddValues := by
  intro W x hW _ hodd
  obtain ⟨w, rfl⟩ := exists_width_bits_eq hW
  calc x * powUnit w.bits x (2 ^ w.bits - 1) % 2 ^ w.bits
      = 1 % 2 ^ w.bits := mul_powUnit_modEq_one (width_bits_pos w) (width_bits_le_countBits w) hodd
    _ = 1 := Nat.mod_eq_of_lt (Nat.one_lt_two_pow (width_bits_pos w).ne')

/-- Settles O12: the count 2^W - 1 is at least W, so the power holds W factors of two. -/
theorem powOfEvenBaseVanishes : Obligations.PowOfEvenBaseVanishes := by
  intro W base hW _ heven
  obtain ⟨w, rfl⟩ := exists_width_bits_eq hW
  have hcount : w.bits ≤ 2 ^ w.bits - 1 := Nat.le_sub_one_of_lt Nat.lt_two_pow_self
  rw [powUnit_eq base (width_bits_pos w) (two_pow_bits_sub_one_lt w)]
  exact Nat.mod_eq_zero_of_dvd (two_pow_dvd_pow_of_even heven hcount)

/-- Settles O21: each row of the table gives the fields of its command, and POW needs no modulus, runs fast on every build and
has the contract base^n mod 2^W. -/
theorem powCommandsIssueAndComplete : Obligations.PowCommandsIssueAndComplete := by
  intro i W s hrow hidle
  obtain ⟨w, hfields, rfl⟩ : ∃ w, i.fields = ⟨.pow, w, .fast⟩ ∧ w.bits = W := by
    simp only [List.mem_cons, Prod.mk.injEq, List.not_mem_nil, or_false] at hrow
    obtain ⟨rfl, rfl⟩ | ⟨rfl, rfl⟩ := hrow <;> exact ⟨_, rfl, rfl⟩
  have hnocheck : needsModulus .pow = true → s.regM.toNat % 2 ^ w.bits ≠ 0 := nofun
  exact exec_issues_and_completes hfields hidle hnocheck

end Sys2Proof.Machine
end

section
/-!
PROOFS. O13, O14 and O22 (42_powmod.md): the modular_exponentiation_engine computes the power mod m over either multiplier, a sum
of counts multiplies the results, and its four commands.
-/

namespace Sys2Proof.Machine

/-- R172: with no bit of the count left, the loop of R171 returns the accumulator, over any multiplier. -/
@[simp] theorem powmodLoop_count_zero (mm : Nat → Nat → Nat → Nat) (m fuel acc sq : Nat) :
    powmodLoop mm m fuel acc sq 0 = acc := by
  cases fuel with
  | zero => rfl
  | succ fuel => rw [powmodLoop, if_pos rfl]

/-- R170 and R173 for the bit-serial multiplier. -/
theorem powmodOver_mulmodSerial_eq {w base n m : Nat} (hb : base < 2 ^ w) (hn : n < 2 ^ countBits) (hm : 0 < m)
    (hmw : m ≤ 2 ^ w) : powmodOver (mulmodSerial w) base n m = base ^ n % m :=
  (powmodOver_mulmodSerial n hb hm hmw).trans (powmodOver_mulmodWide base hn hm)

/-- R173: the modular product of two powers is the power of the sum of the counts. -/
theorem mulmodWide_pow_mod (base n1 n2 m : Nat) :
    mulmodWide (base ^ n1 % m) (base ^ n2 % m) m = base ^ (n1 + n2) % m := by
  rw [pow_add, Nat.mul_mod]
  rfl

/-- The fields of a row of a unit's table, where each row lists a command's width and strategy (30_encoding.md R97). -/
theorem exists_width_of_mem_rows {op : Op} {rows : List (Instr × Nat × Strategy)}
    (hrows : ∀ row ∈ rows, row.1.fields = ⟨op, row.1.fields.width, row.2.2⟩ ∧ row.1.fields.width.bits = row.2.1)
    {i : Instr} {W : Nat} {asked : Strategy} (hrow : (i, W, asked) ∈ rows) :
    ∃ w, i.fields = ⟨op, w, asked⟩ ∧ w.bits = W :=
  ⟨_, hrows _ hrow⟩

/-- Settles O13: the accumulator's start, 1 mod m, is returned as it is. -/
theorem powmodStartsAtOneModM : Obligations.PowmodStartsAtOneModM := by
  intro W base m _
  have hone : 1 % m = if m = 1 then 0 else 1 := by
    split
    next h => rw [h]
    next h => exact Nat.one_mod_eq_one.2 h
  simp only [powmodOver, powmodLoop_count_zero, hone, and_self]

/-- Settles O14: both multipliers give the power, and a power mod m is an operand the bit-serial one takes. -/
theorem powmodMultipliersAgree : Obligations.PowmodMultipliersAgree := by
  intro W base n m _ hb hn hm hmW
  have hmw : m ≤ 2 ^ W := hmW.trans (Nat.sub_le _ _)
  have hwide {k : Nat} (hk : k ≤ n) : powmodOver mulmodWide base k m = base ^ k % m :=
    powmodOver_mulmodWide base (hk.trans_lt hn) hm
  have hserial {k : Nat} (hk : k ≤ n) : powmodOver (mulmodSerial W) base k m = base ^ k % m :=
    powmodOver_mulmodSerial_eq hb (hk.trans_lt hn) hm hmw
  refine ⟨hwide le_rfl, hserial le_rfl, ?_⟩
  rintro n1 n2 rfl
  have hlt : base ^ n1 % m < 2 ^ W := (Nat.mod_lt _ hm).trans_le hmw
  constructor
  · rw [hwide le_rfl, hwide (Nat.le_add_right _ _), hwide (Nat.le_add_left _ _), mulmodWide_pow_mod]
  · rw [hserial le_rfl, hserial (Nat.le_add_right _ _), hserial (Nat.le_add_left _ _),
      mulmodSerial_eq_mulmodWide _ hlt hm, mulmodWide_pow_mod]

/-- Settles O22: each row of the table gives the fields of its command, and the contract of POWMOD is base^n mod m. -/
theorem powmodCommandsIssueAndComplete : Obligations.PowmodCommandsIssueAndComplete := by
  intro i W asked s hrow hidle hm
  obtain ⟨w, hfields, rfl⟩ := exists_width_of_mem_rows (op := .powmod) (by decide) hrow
  have hrun := exec_issues_and_completes hfields hidle fun _ => hm
  rw [effectiveStrategy_of_ne_pow (by decide)] at hrun
  exact hrun

end Sys2Proof.Machine
end

section
/-!
PROOFS. O15, O16, O17, O18 and O23 (43_geomseries.md): the pairing loop's invariant, the equality of the two strategies with the
contract, which gives them its value at ratio 1 and its recurrence, and the four commands.
-/

namespace Sys2Proof.Machine

/-- R202 at the model's widths: each strategy computes the contract. -/
theorem geomStrategies_eq_contract (w : Width) {r n : Nat} (hr : r < 2 ^ w.bits) (hn : n < 2 ^ countBits) :
    geomClosed w.bits r n = geomContract w.bits r n ∧ geomPair w.bits r n = geomContract w.bits r n :=
  ⟨geomClosed_eq (width_bits_pos w) (width_bits_le_countBits w) hr hn, geomPair_eq r (width_bits_pos w) hn⟩

/-- R191: n terms of 1 add up to n. -/
theorem geomContract_ratio_one (w n : Nat) : geomContract w 1 n = n % 2 ^ w := by
  simp [geomContract]

/-- R203: Horner's step, which the reduction mod 2^w respects. -/
theorem geomContract_succ (w r n : Nat) : geomContract w r (n + 1) = (geomContract w r n * r + 1) % 2 ^ w := by
  have hstep : (∑ i ∈ Finset.range n, r ^ i) % 2 ^ w * r + 1 ≡ (∑ i ∈ Finset.range n, r ^ i) * r + 1 [MOD 2 ^ w] :=
    ((Nat.mod_modEq _ _).mul_right r).add_right 1
  rw [geomContract, geomContract, geom_sum_succ, mul_comm r]
  exact hstep.symm

/-- Settles O15, by the loop's induction on its fuel (`pairLoop_eq`). -/
theorem pairingLoopKeepsItsInvariant : Obligations.PairingLoopKeepsItsInvariant := by
  intro W fuel result mult tempR e hW h1 hfuel hcount
  obtain ⟨w, rfl⟩ := exists_width_bits_eq hW
  exact pairLoop_eq (width_bits_pos w) result mult tempR h1 hfuel hcount

/-- Settles O16: both strategies compute the contract. -/
theorem geomStrategiesAgree : Obligations.GeomStrategiesAgree := by
  intro W r n hW hr hn
  obtain ⟨w, rfl⟩ := exists_width_bits_eq hW
  obtain ⟨hclosed, hpair⟩ := geomStrategies_eq_contract w hr hn
  exact ⟨hclosed.trans hpair.symm, hpair⟩

/-- Settles O17: the ratio 1 is below 2^W, so both strategies give the contract's n mod 2^W. -/
theorem geomAtRatioOneIsTheCount : Obligations.GeomAtRatioOneIsTheCount := by
  intro W n hW hn
  obtain ⟨w, rfl⟩ := exists_width_bits_eq hW
  obtain ⟨hclosed, hpair⟩ := geomStrategies_eq_contract w (Nat.one_lt_two_pow (width_bits_pos w).ne') hn
  have hone := geomContract_ratio_one w.bits n
  exact ⟨hone, hclosed.trans hone, hpair.trans hone⟩

/-- Settles O18: the recurrence is the contract's, and both strategies compute the contract at n and at n + 1. -/
theorem geomRecurrence : Obligations.GeomRecurrence := by
  intro W r n hW hr hn
  obtain ⟨w, rfl⟩ := exists_width_bits_eq hW
  obtain ⟨hclosed, hpair⟩ := geomStrategies_eq_contract w hr ((Nat.lt_succ_self n).trans hn)
  obtain ⟨hclosed_succ, hpair_succ⟩ := geomStrategies_eq_contract w hr hn
  rw [hclosed, hpair, hclosed_succ, hpair_succ]
  have hsucc := geomContract_succ w.bits r n
  exact ⟨hsucc, hsucc, hsucc⟩

/-- Settles O23: each row of the table gives the fields of its command, and GEOM needs no modulus and has the contract
(1 + r + ... + r^(n-1)) mod 2^W. -/
theorem geomCommandsIssueAndComplete : Obligations.GeomCommandsIssueAndComplete := by
  intro i W asked s hrow hidle
  obtain ⟨w, hfields, rfl⟩ := exists_width_of_mem_rows (op := .geom) (by decide) hrow
  have hnocheck : needsModulus .geom = true → s.regM.toNat % 2 ^ w.bits ≠ 0 := nofun
  have hrun := exec_issues_and_completes hfields hidle hnocheck
  rw [effectiveStrategy_of_ne_pow (by decide)] at hrun
  exact hrun

end Sys2Proof.Machine
end

section
/-!
PROOFS. O4, O24, O26, O36, O38 and O50 (60_exceptions.md): which words are illegal, which commands report m = 0, what raises ERR
and OVR and what takes OVR away, that no step stops the machine, and the IRQ output.
-/

namespace Sys2Proof.Machine

/-! ### The illegal words -/

theorem opOfField_eq_none_iff (b : BitVec 3) : opOfField b = none ↔ 4 ≤ b.toNat := by decide +revert

theorem opOfField_eq_pow_iff (b : BitVec 3) : opOfField b = some .pow ↔ b.toNat = 1 := by decide +revert

/-- POW has one strategy, and no other choice of fields lacks a command (30_encoding.md R93). -/
theorem instrOfFields_eq_none_iff (op : Op) (w : Width) (strat : Strategy) :
    instrOfFields op w strat = none ↔ op = .pow ∧ strat = .portable := by
  cases op with
  | pow => cases strat <;> cases w <;> decide
  | mulmod | powmod | geom => cases w <;> cases strat <;> decide

theorem stratField_eq_portable_iff (v : Word32) : stratField v = .portable ↔ v.getLsbD 8 = true := by
  rw [stratField]
  cases v.getLsbD 8 <;> decide

/-- The three rejections of a word, one for each check of the decoder (30_encoding.md R96). -/
theorem decodeWord_illegal_iff (v : Word32) :
    (∃ e, decodeWord v = .illegal e) ↔ reservedSet v = true ∨ opOfField (opField v) = none ∨
      (opOfField (opField v) = some .pow ∧ stratField v = .portable) := by
  unfold decodeWord
  cases hres : reservedSet v with
  | true => simp
  | false =>
    cases hop : opOfField (opField v) with
    | none => simp
    | some op =>
      have hnone := instrOfFields_eq_none_iff op (widthField v) (stratField v)
      cases hi : instrOfFields op (widthField v) (stratField v) <;> simpa [hi] using hnone

/-- Settles O4: each entry of the list is one of the decoder's checks on the fields. -/
theorem illegalWordsAreTheListedOnes : Obligations.IllegalWordsAreTheListedOnes := by
  intro v
  rw [decodeWord_illegal_iff, reservedSet_iff, opOfField_eq_none_iff, opOfField_eq_pow_iff, stratField_eq_portable_iff]
  rfl

/-! ### MOD_ZERO -/

/-- An idle core with m = 0 at the width of a command that needs a modulus stores the word and reports MOD_ZERO
(60_exceptions.md R232). -/
theorem exec_of_modulus_zero {i : Instr} {s : State} (hidle : s.eng = .idle) (hneeds : needsModulus i.fields.op = true)
    (hzero : truncOperand i.fields.width s.regM = 0) :
    exec i s = .next (errorReport .modZero (acceptWord (encode i) s)) := by
  rw [exec_eq]
  obtain ⟨j, hbusy, -⟩ | ⟨-, -, -, hreport⟩ | ⟨-, hm, -⟩ := issueCommand_cases i.fields s
  · simp [hidle] at hbusy
  · rw [hreport]
    rfl
  · exact absurd hzero (hm hneeds)

/-- Settles O24: each row lists a command that needs a modulus and its width; POW and GEOM need none, so they issue. -/
theorem modZeroIsReported : Obligations.ModZeroIsReported := by
  constructor
  · intro i W s hrow hidle hzero
    obtain ⟨hneeds, rfl⟩ : needsModulus i.fields.op = true ∧ i.fields.width.bits = W :=
      (by decide : ∀ row ∈ (_ : List (Instr × Nat)),
        needsModulus row.1.fields.op = true ∧ row.1.fields.width.bits = row.2) _ hrow
    exact exec_of_modulus_zero hidle hneeds ((truncOperand_eq_zero _ _).2 hzero)
  · intro i s hi hidle
    have hnocheck : needsModulus i.fields.op = false :=
      (by decide : ∀ i ∈ (_ : List Instr), needsModulus i.fields.op = false) i hi
    exact ⟨_, exec_of_idle hidle (by simp [hnocheck]), rfl, rfl⟩

/-! ### What a step does to OVR and ERR -/

/-- What each effect of a turn does to OVR: it keeps it, but for a CMD write while Busy, a STATUS write and the end of reset
(10_state.md R31). -/
theorem effect_ovr {s u : State} {t : Option Turn} (h : Effect s t u) :
    u.status.ovr = s.status.ovr ∨
    (∃ v j, s.inReset = false ∧ s.eng = .busy j ∧ t = some (writeTurn s.params .cmd v) ∧ u.status.ovr = true) ∨
    (∃ v, s.inReset = false ∧ t = some (writeTurn s.params .status v) ∧
      u.status.ovr = (s.status.ovr && !v.getLsbD 3)) ∨
    (s.inReset = true ∧ t = some .resetRelease ∧ u.status.ovr = false) := by
  cases h with
  | drop v j hr hbusy => exact .inr (.inl ⟨v, j, hr, hbusy, rfl, rfl⟩)
  | status v hr => exact .inr (.inr (.inl ⟨v, hr, rfl, rfl⟩))
  | resetRelease hr => exact .inr (.inr (.inr ⟨hr, rfl, rfl⟩))
  | plain r v => exact .inl (congrArg Status.ovr (plainWrite_status r v s))
  | _ => exact .inl rfl

/-- Settles O26: a Busy engine drops every command, and of the three effects that touch OVR only a STATUS write and the end of
reset clear it. -/
theorem overrunDropsTheCommandAndSticks : Obligations.OverrunDropsTheCommandAndSticks := by
  refine ⟨fun v s j hbusy => commandWrite_of_busy v hbusy, fun i s j hbusy => ?_, fun s t hovr hstep => ?_⟩
  · rw [exec_eq, issueCommand_of_busy i.fields (by simp [hbusy])]
    rfl
  · obtain ⟨u, heffect, rfl⟩ := step_next hstep
    obtain hkept | ⟨_, _, _, _, _, hset⟩ | ⟨v, hr, hturn, hclear⟩ | ⟨hr, hturn, _⟩ := effect_ovr heffect
    · exact .inl (hkept.trans hovr)
    · exact .inl hset
    · obtain ⟨rest, hturns⟩ := List.head?_eq_some_iff.1 hturn
      cases hbit : v.getLsbD 3 with
      | true => exact .inr (.inl ⟨hr, v, rest, hturns, hbit⟩)
      | false =>
        rw [setTurns_status, hovr, hbit] at hclear
        exact .inl hclear
    · exact .inr (.inr ⟨hr, List.head?_eq_some_iff.1 hturn⟩)

/-- An effect of a turn that leaves ERR set found it set, or is the report of a CMD write while Idle (60_exceptions.md R230). -/
theorem effect_err {s u : State} {t : Option Turn} (h : Effect s t u) (herr : u.status.err = true) :
    s.status.err = true ∨
    ∃ v, s.inReset = false ∧ s.eng = .idle ∧ t = some (writeTurn s.params .cmd v) ∧ u.cmd = v ∧
      (((∃ e, decodeWord v = .illegal e) ∧ u.status.errcode = 1) ∨
        (∃ i, decodeWord v = .ok i ∧ needsModulus i.fields.op = true ∧ truncOperand i.fields.width s.regM = 0 ∧
          u.status.errcode = 2)) := by
  cases h with
  | illegal v e hr hidle hd => exact .inr ⟨v, hr, hidle, rfl, rfl, .inl ⟨⟨e, hd⟩, rfl⟩⟩
  | modZero v i hr hidle hd hneeds hzero =>
    exact .inr ⟨v, hr, hidle, rfl, ((decodeWord_eq_ok_iff v i).1 hd).symm, .inr ⟨i, hd, hneeds, hzero, rfl⟩⟩
  | issue | resetRelease => simp at herr
  | status v => exact .inl (Bool.and_elim_left herr)
  | plain r v => exact .inl ((congrArg Status.err (plainWrite_status r v s)).symm.trans herr)
  | answer | nothing | drop | complete | resetAssert => exact .inl herr

/-- An illegal word is no command's (30_encoding.md R98). -/
theorem ne_encode_of_illegal {v : Word32} {e : DecodeError} (h : decodeWord v = .illegal e) (i : Instr) :
    v ≠ encode i := by
  rintro rfl
  simp [decodeWord_encode] at h

/-- Settles O36: by what the turn's effect does to ERR and to OVR, with the decoder's answer read as the word. -/
theorem errorsComeOnlyFromCommandWrites : Obligations.ErrorsComeOnlyFromCommandWrites := by
  intro s t hstep
  obtain ⟨u, heffect, rfl⟩ := step_next hstep
  refine ⟨fun hclear herr => ?_, fun hclear hovr => ?_⟩
  · obtain hset | ⟨v, hr, hidle, hturn, hcmd, hcause⟩ := effect_err heffect herr
    · exact absurd (hset.symm.trans hclear) (by decide)
    · obtain ⟨rest, hturns⟩ := List.head?_eq_some_iff.1 hturn
      refine ⟨v, rest, hr, hidle, hturns, hcmd, hcause.imp ?_ ?_⟩
      · rintro ⟨⟨e, hd⟩, hcode⟩
        exact ⟨ne_encode_of_illegal hd, hcode⟩
      · rintro ⟨i, hd, hneeds, hzero, hcode⟩
        exact ⟨i, (decodeWord_eq_ok_iff v i).1 hd, (needsModulus_iff _).1 hneeds, (truncOperand_eq_zero _ _).1 hzero, hcode⟩
  · obtain hkept | ⟨v, j, hr, hbusy, hturn, _⟩ | ⟨v, _, _, hw1c⟩ | ⟨_, _, hzero⟩ := effect_ovr heffect
    · exact absurd (hkept.symm.trans hovr) (by simp [hclear])
    · obtain ⟨rest, hturns⟩ := List.head?_eq_some_iff.1 hturn
      exact ⟨v, rest, j, hr, hbusy, hturns⟩
    · exact absurd (hw1c.symm.trans hovr) (by simp [hclear])
    · exact absurd (hzero.symm.trans hovr) (by decide)

/-- Settles O38: every turn has an effect. -/
theorem everyStateHasANextState : Obligations.EveryStateHasANextState := by
  intro s
  obtain ⟨u, _, hstep⟩ := step_effect s
  exact ⟨refreshWork u, hstep⟩

/-! ### The IRQ output -/

theorem irqLevel_iff (st : Status) (e : IrqEnable) :
    irqLevel st e = true ↔
      (st.done = true ∧ e.doneIE = true) ∨ (st.err = true ∧ e.errIE = true) ∨ (st.ovr = true ∧ e.ovrIE = true) := by
  simp [irqLevel, or_assoc]

/-- With every report cleared no enable raises IRQ. -/
theorem irqLevel_reports_cleared (st : Status) (e : IrqEnable) : irqLevel (st.writeOneClear 0x0000000E) e = false := by
  rw [writeOneClear_reports]
  rfl

/-- With every enable off no report raises IRQ. -/
theorem irqLevel_masked (st : Status) : irqLevel st (irqenOfWord 0) = false := by
  simp [irqLevel, irqenOfWord]

/-- Settles O50: the two writes are those of the registers at their offsets, and what they leave gives the level 0. -/
theorem irqIsTheOrOfEnabledCauses : Obligations.IrqIsTheOrOfEnabledCauses := fun s =>
  ⟨irqLevel_iff s.status s.irqen,
    ⟨_, writeAccess_regOffset .status _ s, irqLevel_reports_cleared s.status s.irqen⟩,
    ⟨_, writeAccess_regOffset .irqen 0 s, irqLevel_masked s.status, rfl⟩⟩

end Sys2Proof.Machine
end

section
/-!
PROOFS. O53 (70_reset_and_hazards.md R270): while the reset input is asserted, a turn but the release at most gives a response.
-/

namespace Sys2Proof.Machine

/-- A step whose turn is the assertion of reset. -/
theorem step_resetAssert {s : State} {rest : List Turn} (hr : s.inReset = false) (h : s.turns = .resetAssert :: rest) :
    step s = .next (refreshWork (assertReset (setTurns rest s))) := by
  simp [step, nextTurn, h, takeTurn, hr]

/-- In reset every effect but the release gives a response or does nothing: all others need reset released (log 6). -/
theorem effect_of_inReset {s u : State} {t : Option Turn} (h : Effect s t u) (hr : s.inReset = true)
    (hturn : t ≠ some .resetRelease) : u = respond u.response s := by
  cases h with
  | answer | nothing => rfl
  | resetRelease => exact absurd rfl hturn
  | drop _ _ hr' | illegal _ _ hr' | modZero _ _ hr' | issue _ _ hr' | status _ hr' | plain _ _ hr' | complete _ _ hr'
  | resetAssert hr' => exact absurd (hr.symm.trans hr') (by decide)

/-- Settles O53: the turn's effect in reset is a response at most, and the step then leaves only the working registers free. -/
theorem nothingHappensWhileResetIsAsserted : Obligations.NothingHappensWhileResetIsAsserted := by
  refine ⟨fun s rest hr hturns => ⟨_, step_resetAssert hr hturns, rfl⟩, fun s t hr hrelease hstep => ?_⟩
  obtain ⟨u, heffect, rfl⟩ := step_next hstep
  have hturn : s.turns.head? ≠ some .resetRelease := by
    intro hhead
    obtain ⟨rest, hturns⟩ := List.head?_eq_some_iff.1 hhead
    exact hrelease rest hturns
  have hu : u = respond u.response (setTurns s.turns.tail s) := effect_of_inReset heffect hr hturn
  rw [hu]
  rfl

end Sys2Proof.Machine
end
